-- ==== Sys2Proof/Word.lean ====
section
/-! DEFINITION. The bit vectors of the block: a byte, a port number, a transaction word (R5, R40, R60). -/

namespace Sys2Proof

/-- A byte, 8 bits: a cell of the register bank, a bus data value (R5 `CELL_BITS`, `DATA_BITS`; R6). -/
abbrev Byte := BitVec 8

/-- A port number, 4 bits, 0x0 to 0xF (R5 `PORT_BITS`, R40). It selects, nothing is computed with it (R67). -/
abbrev Port := BitVec 4

/-- The canonical transaction word, 13 bits: bit 12 `rw`, bits 11:8 `port`, bits 7:0 `value` (R60 to R62). -/
abbrev TransWord := BitVec 13

end Sys2Proof
end

