-- ==== Sys2Proof/Syntax.lean ====
section
/-! DEFINITION. The bus transactions, one constructor for each row of `spec/opcode_table.json` (R63, R64). -/

namespace Sys2Proof

/-- A bus transaction: sixteen writes, each with the byte on the bus (R61), and sixteen reads, which have no operand
(R62). A port that ignores the byte still carries it: every one of the 4096 write words is a legal write (R61, R67). -/
inductive Instr where
  | ldctl0 (value : Byte)    -- `LDCTL0`: write port 0x0 (R81)
  | ldctl1 (value : Byte)    -- `LDCTL1`: write port 0x1 (R82)
  | ldctl2 (value : Byte)    -- `LDCTL2`: write port 0x2 (R83)
  | ldctl3 (value : Byte)    -- `LDCTL3`: write port 0x3 (R84)
  | ldctl4 (value : Byte)    -- `LDCTL4`: write port 0x4 (R85)
  | ldctl5 (value : Byte)    -- `LDCTL5`: write port 0x5 (R86)
  | ldlastrow (value : Byte)    -- `LDLASTROW`: write port 0x6 (R87)
  | procload (value : Byte)    -- `PROCLOAD`: write port 0x7 (R88)
  | wnull8 (value : Byte)    -- `WNULL8`: write port 0x8 (R89)
  | wnull9 (value : Byte)    -- `WNULL9`: write port 0x9 (R90)
  | rstcnt (value : Byte)    -- `RSTCNT`: write port 0xA (R91)
  | scrollup (value : Byte)    -- `SCROLLUP`: write port 0xB (R92)
  | ldcurx (value : Byte)    -- `LDCURX`: write port 0xC (R93)
  | ldcury (value : Byte)    -- `LDCURY`: write port 0xD (R94)
  | starttim (value : Byte)    -- `STARTTIM`: write port 0xE (R95)
  | selfload (value : Byte)    -- `SELFLOAD`: write port 0xF (R96)
  | rnull0    -- `RNULL0`: read port 0x0 (R101)
  | rnull1    -- `RNULL1`: read port 0x1 (R102)
  | rnull2    -- `RNULL2`: read port 0x2 (R103)
  | rnull3    -- `RNULL3`: read port 0x3 (R104)
  | rnull4    -- `RNULL4`: read port 0x4 (R105)
  | rnull5    -- `RNULL5`: read port 0x5 (R106)
  | rnull6    -- `RNULL6`: read port 0x6 (R107)
  | rnull7    -- `RNULL7`: read port 0x7 (R108)
  | rdcury    -- `RDCURY`: read port 0x8 (R109)
  | rdcurx    -- `RDCURX`: read port 0x9 (R110)
  | rnullA    -- `RNULLA`: read port 0xA (R111)
  | rnullB    -- `RNULLB`: read port 0xB (R112)
  | rnullC    -- `RNULLC`: read port 0xC (R113)
  | rnullD    -- `RNULLD`: read port 0xD (R114)
  | rnullE    -- `RNULLE`: read port 0xE (R115)
  | rnullF    -- `RNULLF`: read port 0xF (R116)
deriving DecidableEq, Repr

end Sys2Proof
end

