-- ==== Sys2Proof/WellFormed.lean ====
section
/-! DEFINITION. What a caller must keep: a port in 0 to 15, a value in 0 to 255, a word of 13 bits (R60, R69, R151). -/

namespace Sys2Proof

/-- "port ∈ [0,15]" (R60, R69). -/
def portWf (port : Nat) : Bool := decide (port < 16)

/-- "value ∈ [0,255]" (R60, R69). -/
def valueWf (value : Nat) : Bool := decide (value < 256)

/-- A transaction word has 13 bits (R60 to R62). -/
def wordWf (word : Nat) : Bool := decide (word < 0x2000)

/-- An instruction keeps the contract if its byte does. Every instruction does: "a model types the port as 4 bits and
the value as 8 bits and the case does not arise" (R69). -/
def Instr.wf : Instr → Bool
  | .ldctl0 value => valueWf value.toNat
  | .ldctl1 value => valueWf value.toNat
  | .ldctl2 value => valueWf value.toNat
  | .ldctl3 value => valueWf value.toNat
  | .ldctl4 value => valueWf value.toNat
  | .ldctl5 value => valueWf value.toNat
  | .ldlastrow value => valueWf value.toNat
  | .procload value => valueWf value.toNat
  | .wnull8 value => valueWf value.toNat
  | .wnull9 value => valueWf value.toNat
  | .rstcnt value => valueWf value.toNat
  | .scrollup value => valueWf value.toNat
  | .ldcurx value => valueWf value.toNat
  | .ldcury value => valueWf value.toNat
  | .starttim value => valueWf value.toNat
  | .selfload value => valueWf value.toNat
  | .rnull0 => true
  | .rnull1 => true
  | .rnull2 => true
  | .rnull3 => true
  | .rnull4 => true
  | .rnull5 => true
  | .rnull6 => true
  | .rnull7 => true
  | .rdcury => true
  | .rdcurx => true
  | .rnullA => true
  | .rnullB => true
  | .rnullC => true
  | .rnullD => true
  | .rnullE => true
  | .rnullF => true

end Sys2Proof
end

