-- ==== Sys2Proof/Decode.lean ====
section
/-! DEFINITION. The port decoder and the encoder.

The decoder is the match and mask columns of R63 and R64. The encoder is the field layout of R61 and R62. -/

namespace Sys2Proof

/-- Why a transaction is turned away: each is "a contract violation by the caller" (R69), which a model with wider
inputs "must refuse (no meaning), not clamp and not wrap". -/
inductive DecodeError where
  | notATransactionWord    -- the word has a bit above bit 12 (R60)
  | noSuchRow              -- no row of the two tables selects the word (no 13-bit word is such)
  | portOutOfRange         -- a call with a port above 15 (U2)
  | valueOutOfRange        -- a call with a value above 255 (U3)
deriving DecidableEq, Repr

/-- A row of the decode tables: a word `w` is the row's when `w & mask = match` (R63, R64). -/
structure DecodeRow where
  mnemonic : String
  matchBits : TransWord
  mask : TransWord
  build : Byte → Instr

/-- The `value` field, bits 7:0 (R61). -/
def valueField (w : TransWord) : Byte := w.extractLsb' 0 8

/-- `w & mask = match` (R63). -/
def DecodeRow.selects (r : DecodeRow) (w : TransWord) : Bool := w &&& r.mask == r.matchBits

/-- The write decode table (R63). -/
def writeRows : List DecodeRow :=
  [ ⟨"LDCTL0", 0x1000#13, 0x1F00#13, Instr.ldctl0⟩
  , ⟨"LDCTL1", 0x1100#13, 0x1F00#13, Instr.ldctl1⟩
  , ⟨"LDCTL2", 0x1200#13, 0x1F00#13, Instr.ldctl2⟩
  , ⟨"LDCTL3", 0x1300#13, 0x1F00#13, Instr.ldctl3⟩
  , ⟨"LDCTL4", 0x1400#13, 0x1F00#13, Instr.ldctl4⟩
  , ⟨"LDCTL5", 0x1500#13, 0x1F00#13, Instr.ldctl5⟩
  , ⟨"LDLASTROW", 0x1600#13, 0x1F00#13, Instr.ldlastrow⟩
  , ⟨"PROCLOAD", 0x1700#13, 0x1F00#13, Instr.procload⟩
  , ⟨"WNULL8", 0x1800#13, 0x1F00#13, Instr.wnull8⟩
  , ⟨"WNULL9", 0x1900#13, 0x1F00#13, Instr.wnull9⟩
  , ⟨"RSTCNT", 0x1A00#13, 0x1F00#13, Instr.rstcnt⟩
  , ⟨"SCROLLUP", 0x1B00#13, 0x1F00#13, Instr.scrollup⟩
  , ⟨"LDCURX", 0x1C00#13, 0x1F00#13, Instr.ldcurx⟩
  , ⟨"LDCURY", 0x1D00#13, 0x1F00#13, Instr.ldcury⟩
  , ⟨"STARTTIM", 0x1E00#13, 0x1F00#13, Instr.starttim⟩
  , ⟨"SELFLOAD", 0x1F00#13, 0x1F00#13, Instr.selfload⟩ ]

/-- The read decode table (R64). The low byte "carries nothing" and is ignored (R62). -/
def readRows : List DecodeRow :=
  [ ⟨"RNULL0", 0x0000#13, 0x1F00#13, fun _ => Instr.rnull0⟩
  , ⟨"RNULL1", 0x0100#13, 0x1F00#13, fun _ => Instr.rnull1⟩
  , ⟨"RNULL2", 0x0200#13, 0x1F00#13, fun _ => Instr.rnull2⟩
  , ⟨"RNULL3", 0x0300#13, 0x1F00#13, fun _ => Instr.rnull3⟩
  , ⟨"RNULL4", 0x0400#13, 0x1F00#13, fun _ => Instr.rnull4⟩
  , ⟨"RNULL5", 0x0500#13, 0x1F00#13, fun _ => Instr.rnull5⟩
  , ⟨"RNULL6", 0x0600#13, 0x1F00#13, fun _ => Instr.rnull6⟩
  , ⟨"RNULL7", 0x0700#13, 0x1F00#13, fun _ => Instr.rnull7⟩
  , ⟨"RDCURY", 0x0800#13, 0x1F00#13, fun _ => Instr.rdcury⟩
  , ⟨"RDCURX", 0x0900#13, 0x1F00#13, fun _ => Instr.rdcurx⟩
  , ⟨"RNULLA", 0x0A00#13, 0x1F00#13, fun _ => Instr.rnullA⟩
  , ⟨"RNULLB", 0x0B00#13, 0x1F00#13, fun _ => Instr.rnullB⟩
  , ⟨"RNULLC", 0x0C00#13, 0x1F00#13, fun _ => Instr.rnullC⟩
  , ⟨"RNULLD", 0x0D00#13, 0x1F00#13, fun _ => Instr.rnullD⟩
  , ⟨"RNULLE", 0x0E00#13, 0x1F00#13, fun _ => Instr.rnullE⟩
  , ⟨"RNULLF", 0x0F00#13, 0x1F00#13, fun _ => Instr.rnullF⟩ ]

/-- Both tables: the whole port decoder (R49). -/
def decodeRows : List DecodeRow := writeRows ++ readRows

/-- What a 13-bit word means: the row that selects it, given the word's value field. -/
def decodeWord (w : TransWord) : Option Instr :=
  (decodeRows.find? fun r => r.selects w).map fun r => r.build (valueField w)

/-- What a number on the bus means as a transaction word; a number of more than 13 bits is refused by name (R69). -/
def decode (word : Nat) : Except DecodeError Instr :=
  if wordWf word then
    match decodeWord (BitVec.ofNat 13 word) with
    | some i => .ok i
    | none => .error .noSuchRow
  else .error .notATransactionWord

/-- The direction bit: true for a write (R61, R62). -/
def Instr.isWrite : Instr → Bool
  | .ldctl0 _ => true
  | .ldctl1 _ => true
  | .ldctl2 _ => true
  | .ldctl3 _ => true
  | .ldctl4 _ => true
  | .ldctl5 _ => true
  | .ldlastrow _ => true
  | .procload _ => true
  | .wnull8 _ => true
  | .wnull9 _ => true
  | .rstcnt _ => true
  | .scrollup _ => true
  | .ldcurx _ => true
  | .ldcury _ => true
  | .starttim _ => true
  | .selfload _ => true
  | .rnull0 => false
  | .rnull1 => false
  | .rnull2 => false
  | .rnull3 => false
  | .rnull4 => false
  | .rnull5 => false
  | .rnull6 => false
  | .rnull7 => false
  | .rdcury => false
  | .rdcurx => false
  | .rnullA => false
  | .rnullB => false
  | .rnullC => false
  | .rnullD => false
  | .rnullE => false
  | .rnullF => false

/-- The port of each mnemonic (R63, R64). -/
def Instr.port : Instr → Port
  | .ldctl0 _ => 0x0#4
  | .ldctl1 _ => 0x1#4
  | .ldctl2 _ => 0x2#4
  | .ldctl3 _ => 0x3#4
  | .ldctl4 _ => 0x4#4
  | .ldctl5 _ => 0x5#4
  | .ldlastrow _ => 0x6#4
  | .procload _ => 0x7#4
  | .wnull8 _ => 0x8#4
  | .wnull9 _ => 0x9#4
  | .rstcnt _ => 0xA#4
  | .scrollup _ => 0xB#4
  | .ldcurx _ => 0xC#4
  | .ldcury _ => 0xD#4
  | .starttim _ => 0xE#4
  | .selfload _ => 0xF#4
  | .rnull0 => 0x0#4
  | .rnull1 => 0x1#4
  | .rnull2 => 0x2#4
  | .rnull3 => 0x3#4
  | .rnull4 => 0x4#4
  | .rnull5 => 0x5#4
  | .rnull6 => 0x6#4
  | .rnull7 => 0x7#4
  | .rdcury => 0x8#4
  | .rdcurx => 0x9#4
  | .rnullA => 0xA#4
  | .rnullB => 0xB#4
  | .rnullC => 0xC#4
  | .rnullD => 0xD#4
  | .rnullE => 0xE#4
  | .rnullF => 0xF#4

/-- The byte in bits 7:0: a write's value (R61), 0 for a read (R62 "written as 0 in this spec"). -/
def Instr.value : Instr → Byte
  | .ldctl0 value => value
  | .ldctl1 value => value
  | .ldctl2 value => value
  | .ldctl3 value => value
  | .ldctl4 value => value
  | .ldctl5 value => value
  | .ldlastrow value => value
  | .procload value => value
  | .wnull8 value => value
  | .wnull9 value => value
  | .rstcnt value => value
  | .scrollup value => value
  | .ldcurx value => value
  | .ldcury value => value
  | .starttim value => value
  | .selfload value => value
  | .rnull0 => 0#8
  | .rnull1 => 0#8
  | .rnull2 => 0#8
  | .rnull3 => 0#8
  | .rnull4 => 0#8
  | .rnull5 => 0#8
  | .rnull6 => 0#8
  | .rnull7 => 0#8
  | .rdcury => 0#8
  | .rdcurx => 0#8
  | .rnullA => 0#8
  | .rnullB => 0#8
  | .rnullC => 0#8
  | .rnullD => 0#8
  | .rnullE => 0#8
  | .rnullF => 0#8

/-- The canonical word with the three fields at their places: `rw` in bit 12, `port` in 11:8, `value` in 7:0 (R61, R62). -/
def wordOfFields (isWrite : Bool) (port : Port) (value : Byte) : TransWord :=
  BitVec.ofBool isWrite ++ port ++ value

/-- The word of an instruction. -/
def encode (i : Instr) : TransWord := wordOfFields i.isWrite i.port i.value

/-- The word of the call `write(port, value)`: `0x1000 + port * 0x100 + value` (R61), out-of-range arguments refused
(R69, U2, U3). -/
def wordOfWriteCall (port value : Nat) : Except DecodeError Nat :=
  if !portWf port then .error .portOutOfRange
  else if !valueWf value then .error .valueOutOfRange
  else .ok (0x1000 + port * 0x100 + value)

/-- The word of the call `read(port)`: `port * 0x100` (R62), an out-of-range port refused (R69, U2). -/
def wordOfReadCall (port : Nat) : Except DecodeError Nat :=
  if !portWf port then .error .portOutOfRange else .ok (port * 0x100)

/-- The instruction the decoder reads from the lowest `nbits` bits of `w`, every bit above them 0. -/
def decodeTableWord (nbits w : Nat) : Option Instr := (decode (w % 2 ^ nbits)).toOption

end Sys2Proof
end

