-- ==== Sys2Proof/Config.lean ====
section
/-! DEFINITION. The parameters of the block (R5) and its one free value (R171).

`F` is an argument of `hostInitialize` and the two tick counts are computed from it (R121, R131).
`TIE_ORDER` is `either`: which of two operations at one time unit comes first stands in `State.inputs` (log 4).
`PORT_BASE` belongs to the platform and no rule of the block reads it (R50, log 16). -/

namespace Sys2Proof.Config

/-- `NUM_CELLS` (R5): cells in the register bank. -/
abbrev numCells : Nat := 16

/-- `ROW_COUNT` (R5): the modulus of the scroll arithmetic. A constant: no register changes it (R182). -/
def rowCount : Nat := 32

/-- `BLANK_US` in tenths of a microsecond: 4.7 µs is 47/10 (R5). -/
def blankTenths : Nat := 47

/-- `NONBLANK_US` in tenths of a microsecond: 58.8 µs is 588/10 (R5). -/
def nonblankTenths : Nat := 588

/-- Tenths of a microsecond in a second: the `10^7` under both floors of R131. -/
def tenthsPerSecond : Nat := 10000000

/-- What cell `i` holds at power-on, before the first `reset()`: an unspecified byte, "a free draw in 0 to 255, the
same at every read until written" (R171, D5). No body: nothing can be proved of it (log 5). -/
opaque powerOnCell : Fin numCells → Byte

end Sys2Proof.Config
end

