-- ==== Sys2Proof/Machine/State.lean ====
section
/-! DEFINITION. The state of the block (R20), what it refers to but does not own (R31, R32), and the model's own two
fields: the operations handed to it (log 2) and the values it has returned (log 3). -/

namespace Sys2Proof.Machine

/-- The blanking flag (R27): `nonblank` while pixel data is emitted, `blank` while none is. -/
inductive Phase where
  | nonblank
  | blank
deriving DecidableEq, Repr

/-- An operation handed to the block (R10), or the environment's letting time pass (R32). -/
inductive Input where
  /-- The bus master presents a transaction word (R60); a number, so that a word too wide can be handed over and
  refused (R69). -/
  | bus (word : Nat)
  /-- The host performs `reset()` (R120). -/
  | hostReset
  /-- The host performs `initialize(F)` (R121). -/
  | hostInitialize (freq : Nat)
  /-- The renderer calls `cursorX()` (R122). -/
  | cursorX
  /-- The renderer calls `cursorY()` (R123). -/
  | cursorY
  /-- The renderer calls `firstDisplayRow()` (R124). -/
  | firstDisplayRow
  /-- The renderer calls `isBlanking()` (R125). -/
  | isBlanking
  /-- The Scheduler delivers the due expiry before the operation that follows (R133); with this input a caller's
  stream can order an expiry first, without it the operation is first (R155, `TIE_ORDER = either`, log 4). -/
  | expiry
  /-- The environment lets this many time units pass (R32); an expiry that falls inside runs at its time (R135, log 8). -/
  | advance (units : Nat)
deriving DecidableEq, Repr

/-- A value returned to a caller (R60, R127), with what it answers. -/
inductive Answer where
  | read (port : Port) (value : Byte)       -- to the bus master (R100)
  | cursorX (value : Byte)                  -- R122
  | cursorY (value : Byte)                  -- R123
  | firstDisplayRow (row : Fin 32)          -- R124
  | isBlanking (blanking : Bool)            -- R125
deriving DecidableEq, Repr

/-- The block raises no exception of any kind: "The complete list of exception causes is empty" (R150). So no
constructor, and no step can fault. -/
inductive Fault : Type where
deriving DecidableEq, Repr

/-- The spec's refusals (`raise Refuse`, R8): "a statement about the model, not an event in the hardware" (R151).
Each is safe: nothing can be proved of a run that contains one. -/
inductive Refusal where
  /-- Raised by no arm of this model: every row of the opcode table has its meaning. Safe. -/
  | notModelled (mnemonic : String)
  /-- Raised by a bus input whose word the decoder turns away (R69, R151). Safe. -/
  | notATransactionWord
  /-- Raised by `isBlanking()` before `initialize` (R125, U1). Safe. -/
  | blankingReadBeforeInitialize
  /-- Raised by `initialize` when it has already run (R121, R175, U4). Safe. -/
  | secondInitialize
  /-- Raised by `initialize` for a frequency whose blanking duration floors to 0 (R121, U5). Safe. -/
  | zeroDuration
  /-- Raised by an expiry input when no expiry is due: the Scheduler has no such move (R133, R135). Safe. -/
  | expiryNotDue
  /-- Raised when time would pass in a state whose deadline lies in the past, a state the Scheduler's contract excludes
  (R135 (a), (c); U14). Safe. -/
  | timerOverdue
deriving DecidableEq, Repr

/-- The state of the block and of the environment it touches. -/
structure State where
  /-- `x[0..15]`, the RegisterBank (R21). -/
  cells : Vector Byte 16
  /-- The blanking flag (R27). No rule gives it a value before `initialize`, and none reads it then (R30, log 6). -/
  phase : Phase
  /-- The length of the BLANK phase in time units (R28; log 6 before `initialize`). -/
  blankTicks : Nat
  /-- The length of the NONBLANK phase in time units (R28; log 6 before `initialize`). -/
  nonblankTicks : Nat
  /-- The pending one-shot timer: absent, or its deadline (R29). -/
  armed : Option Nat
  /-- Whether `initialize` has run (R30). -/
  initialised : Bool
  /-- The Scheduler's clock in time units (R32). -/
  now : Nat
  /-- The FrameSink's count of notifications (R31). -/
  dirty : Nat
  /-- The model's own: the operations still to be handed to the block, next first (R33, log 2). -/
  inputs : List Input
  /-- The model's own: the values returned so far, latest first (log 3). -/
  answers : List Answer
deriving DecidableEq, Repr

/-- What a step or a meaning ends in. -/
abbrev Result := Host.Outcome State Fault Refusal

/-- Power-on, before any operation (R36, R171): each cell an unspecified byte, nothing armed, not initialised. The
clock's origin and the count are the environment's (log 7); the phase and the durations have no value yet (log 6). -/
def State.powerOn : State where
  cells := Vector.ofFn Config.powerOnCell
  phase := .nonblank
  blankTicks := 0
  nonblankTicks := 0
  armed := none
  initialised := false
  now := 0
  dirty := 0
  inputs := []
  answers := []

/-- The machine right after its first `reset()` from power-on: every cell 0, all else as at power-on (R36, R170). -/
def State.reset : State where
  cells := Vector.replicate 16 0#8
  phase := .nonblank
  blankTicks := 0
  nonblankTicks := 0
  armed := none
  initialised := false
  now := 0
  dirty := 0
  inputs := []
  answers := []

end Sys2Proof.Machine
end

