-- ==== Sys2Proof/Machine/Ops.lean ====
section
/-! DEFINITION. The named operations over the register bank, the FrameSink and the answers, and the two bus primitives
as R42 and R43 write them. -/

namespace Sys2Proof.Machine

/-- `ScrollOffset = x[0x6]` (R7, R25). -/
def scrollOffsetCell : Fin 16 := 0x6

/-- `CursorY = x[0x8]` (R7, R24). -/
def cursorYCell : Fin 16 := 0x8

/-- `CursorX = x[0x9]` (R7, R23). -/
def cursorXCell : Fin 16 := 0x9

/-- `x[i]` (R7). -/
def State.cell (s : State) (i : Fin 16) : Byte := s.cells[i]

/-- `x[i] <- v` (R7). -/
def State.setCell (s : State) (i : Fin 16) (v : Byte) : State := { s with cells := s.cells.set i v }

/-- Every cell 0 at once (R120, R47). -/
def State.clearCells (s : State) : State := { s with cells := Vector.replicate 16 0#8 }

/-- `markDirty()`: one FrameSink notification (R8, R31). -/
def State.markDirty (s : State) : State := { s with dirty := s.dirty + 1 }

/-- A value goes back to the caller (R60, R126). -/
def State.answer (s : State) (a : Answer) : State := { s with answers := a :: s.answers }

/-- `(offset + 1) mod 32`, the sum "formed without wrap at 8 bits" (R92, R124). -/
def rowAfter (offset : Byte) : Nat := (offset.toNat + 1) % Config.rowCount

/-- The scroll-up command's register effect: `x[0x6] <- (x[0x6] + 1) mod 32` (R92). -/
def State.scrollUp (s : State) : State :=
  s.setCell scrollOffsetCell (BitVec.ofNat 8 (rowAfter (s.cell scrollOffsetCell)))

/-- A bus write: the port's register effect, then exactly one notification, one indivisible operation (R80). -/
def busWrite (effect : State → State) (s : State) : Result := .next (effect s).markDirty

/-- A write to a port with no function: no register changes, the FrameSink is notified all the same (R68, U12). -/
def inertWrite (s : State) : Result := busWrite (fun s => s) s

/-- A bus read: one byte goes back to the bus master and nothing else changes (R100). -/
def busRead (port : Port) (value : Byte) (s : State) : Result := .next (s.answer (.read port value))

/-- `MemRead(p, 1)` as R42 writes it; the meanings do not call it, statements compare them with it. -/
def memRead (p : Port) (s : State) : Byte :=
  if p = 0x8#4 then s.cell 0x8
  else if p = 0x9#4 then s.cell 0x9
  else 0x00#8

/-- The register effect of `MemWrite(p, 1, v)` as R43 writes it. -/
def memWriteEffect (p : Port) (v : Byte) (s : State) : State :=
  if p = 0x6#4 then s.setCell 0x6 v
  else if p = 0xB#4 then s.setCell 0x6 (BitVec.ofNat 8 (((s.cell 0x6).toNat + 1) % 32))
  else if p = 0xC#4 then s.setCell 0x9 v
  else if p = 0xD#4 then s.setCell 0x8 (v &&& 0x3F#8)
  else s

/-- `MemWrite(p, 1, v)` as R43 writes it; the meanings do not call it, statements compare them with it. -/
def memWrite (p : Port) (v : Byte) (s : State) : State := (memWriteEffect p v s).markDirty

/-- The next operation handed to the block, and the state without it (R33). -/
def takeInput (s : State) : Option (Input × State) :=
  match s.inputs with
  | [] => none
  | e :: rest => some (e, { s with inputs := rest })

/-- An operation put before all that are still to come. -/
def State.pushInput (s : State) (e : Input) : State := { s with inputs := e :: s.inputs }

end Sys2Proof.Machine
end

