-- ==== Sys2Proof/Machine/Operands.lean ====
section
/-! DEFINITION. The operand of a write: the byte whole, its low six bits, or not at all (R67). -/

namespace Sys2Proof.Machine

/-- `value[7:0]` whole: "taken from the bus as it is" (R67; `LDLASTROW`, `LDCURX`). -/
def wholeValue (value : Byte) : Byte := value

/-- `value & 0x3F`: bits 5:0 used, bits 7:6 discarded (R67, R94; `LDCURY`). -/
def lowSixBits (value : Byte) : Byte := value &&& 0x3F#8

end Sys2Proof.Machine
end

