-- ==== Sys2Proof/Machine/ReadPorts.lean ====
section
/-! DEFINITION. The sixteen read ports, one meaning each (R100 to R116). -/

namespace Sys2Proof.Machine

/-- `RNULL0` (R101), read port 0x0: returns 0. -/
def execRnull0 (s : State) : Result := busRead 0x0#4 0x00#8 s

/-- `RNULL1` (R102), read port 0x1: returns 0. -/
def execRnull1 (s : State) : Result := busRead 0x1#4 0x00#8 s

/-- `RNULL2` (R103), read port 0x2: returns 0. -/
def execRnull2 (s : State) : Result := busRead 0x2#4 0x00#8 s

/-- `RNULL3` (R104), read port 0x3: returns 0. -/
def execRnull3 (s : State) : Result := busRead 0x3#4 0x00#8 s

/-- `RNULL4` (R105), read port 0x4: returns 0. -/
def execRnull4 (s : State) : Result := busRead 0x4#4 0x00#8 s

/-- `RNULL5` (R106), read port 0x5: returns 0. -/
def execRnull5 (s : State) : Result := busRead 0x5#4 0x00#8 s

/-- `RNULL6` (R107), read port 0x6: returns 0, not the ScrollOffset cell. -/
def execRnull6 (s : State) : Result := busRead 0x6#4 0x00#8 s

/-- `RNULL7` (R108), read port 0x7: returns 0. -/
def execRnull7 (s : State) : Result := busRead 0x7#4 0x00#8 s

/-- `RDCURY` (R109), read port 0x8: returns the CursorY cell. -/
def execRdcury (s : State) : Result := busRead 0x8#4 (s.cell cursorYCell) s

/-- `RDCURX` (R110), read port 0x9: returns the CursorX cell. -/
def execRdcurx (s : State) : Result := busRead 0x9#4 (s.cell cursorXCell) s

/-- `RNULLA` (R111), read port 0xA: returns 0. -/
def execRnullA (s : State) : Result := busRead 0xA#4 0x00#8 s

/-- `RNULLB` (R112), read port 0xB: returns 0, and it does not scroll. -/
def execRnullB (s : State) : Result := busRead 0xB#4 0x00#8 s

/-- `RNULLC` (R113), read port 0xC: returns 0, not CursorX. -/
def execRnullC (s : State) : Result := busRead 0xC#4 0x00#8 s

/-- `RNULLD` (R114), read port 0xD: returns 0, not CursorY. -/
def execRnullD (s : State) : Result := busRead 0xD#4 0x00#8 s

/-- `RNULLE` (R115), read port 0xE: returns 0. -/
def execRnullE (s : State) : Result := busRead 0xE#4 0x00#8 s

/-- `RNULLF` (R116), read port 0xF: returns 0. -/
def execRnullF (s : State) : Result := busRead 0xF#4 0x00#8 s

end Sys2Proof.Machine
end

