-- ==== Sys2Proof/Machine/WritePorts.lean ====
section
/-! DEFINITION. The sixteen write ports, one meaning each (R80 to R96). -/

namespace Sys2Proof.Machine

/-- `LDCTL0` (R81), write port 0x0: a timing parameter, stored nowhere: inert. -/
def execLdctl0 (_value : Byte) (s : State) : Result := inertWrite s

/-- `LDCTL1` (R82), write port 0x1: a timing parameter, stored nowhere: inert. -/
def execLdctl1 (_value : Byte) (s : State) : Result := inertWrite s

/-- `LDCTL2` (R83), write port 0x2: a timing parameter, stored nowhere: inert. -/
def execLdctl2 (_value : Byte) (s : State) : Result := inertWrite s

/-- `LDCTL3` (R84), write port 0x3: inert: it does not set the row count. -/
def execLdctl3 (_value : Byte) (s : State) : Result := inertWrite s

/-- `LDCTL4` (R85), write port 0x4: a timing parameter, stored nowhere: inert. -/
def execLdctl4 (_value : Byte) (s : State) : Result := inertWrite s

/-- `LDCTL5` (R86), write port 0x5: a timing parameter, stored nowhere: inert. -/
def execLdctl5 (_value : Byte) (s : State) : Result := inertWrite s

/-- `LDLASTROW` (R87), write port 0x6: `x[0x6] <- value`, all 8 bits, no mask and no range check. -/
def execLdlastrow (value : Byte) (s : State) : Result := busWrite (fun s => s.setCell scrollOffsetCell (wholeValue value)) s

/-- `PROCLOAD` (R88), write port 0x7: "processor-load command", inert. -/
def execProcload (_value : Byte) (s : State) : Result := inertWrite s

/-- `WNULL8` (R89), write port 0x8: inert: it does not load CursorY. -/
def execWnull8 (_value : Byte) (s : State) : Result := inertWrite s

/-- `WNULL9` (R90), write port 0x9: inert: it does not load CursorX. -/
def execWnull9 (_value : Byte) (s : State) : Result := inertWrite s

/-- `RSTCNT` (R91), write port 0xA: "reset/freeze counters", inert: it performs no `reset()` and the blanking timer runs on. -/
def execRstcnt (_value : Byte) (s : State) : Result := inertWrite s

/-- `SCROLLUP` (R92), write port 0xB: `x[0x6] <- (x[0x6] + 1) mod 32`, the value ignored. -/
def execScrollup (_value : Byte) (s : State) : Result := busWrite State.scrollUp s

/-- `LDCURX` (R93), write port 0xC: `x[0x9] <- value`, full 8 bits. -/
def execLdcurx (value : Byte) (s : State) : Result := busWrite (fun s => s.setCell cursorXCell (wholeValue value)) s

/-- `LDCURY` (R94), write port 0xD: `x[0x8] <- value & 0x3F`, the upper bits discarded. -/
def execLdcury (value : Byte) (s : State) : Result := busWrite (fun s => s.setCell cursorYCell (lowSixBits value)) s

/-- `STARTTIM` (R95), write port 0xE: "start-timing command", inert: it does not start or restart the blanking timer. -/
def execStarttim (_value : Byte) (s : State) : Result := inertWrite s

/-- `SELFLOAD` (R96), write port 0xF: "self-load command", inert. -/
def execSelfload (_value : Byte) (s : State) : Result := inertWrite s

end Sys2Proof.Machine
end

