-- ==== Sys2Proof/Machine/Dispatch.lean ====
section
/-! DEFINITION. The dispatch of a bus transaction to its meaning: one arm a row of the opcode table (R63, R64). -/

namespace Sys2Proof.Machine

def exec (i : Instr) (s : State) : Host.Outcome State Fault Refusal :=
  match i with
  | .ldctl0 value => Sys2Proof.Machine.execLdctl0 value s
  | .ldctl1 value => Sys2Proof.Machine.execLdctl1 value s
  | .ldctl2 value => Sys2Proof.Machine.execLdctl2 value s
  | .ldctl3 value => Sys2Proof.Machine.execLdctl3 value s
  | .ldctl4 value => Sys2Proof.Machine.execLdctl4 value s
  | .ldctl5 value => Sys2Proof.Machine.execLdctl5 value s
  | .ldlastrow value => Sys2Proof.Machine.execLdlastrow value s
  | .procload value => Sys2Proof.Machine.execProcload value s
  | .wnull8 value => Sys2Proof.Machine.execWnull8 value s
  | .wnull9 value => Sys2Proof.Machine.execWnull9 value s
  | .rstcnt value => Sys2Proof.Machine.execRstcnt value s
  | .scrollup value => Sys2Proof.Machine.execScrollup value s
  | .ldcurx value => Sys2Proof.Machine.execLdcurx value s
  | .ldcury value => Sys2Proof.Machine.execLdcury value s
  | .starttim value => Sys2Proof.Machine.execStarttim value s
  | .selfload value => Sys2Proof.Machine.execSelfload value s
  | .rnull0 => Sys2Proof.Machine.execRnull0 s
  | .rnull1 => Sys2Proof.Machine.execRnull1 s
  | .rnull2 => Sys2Proof.Machine.execRnull2 s
  | .rnull3 => Sys2Proof.Machine.execRnull3 s
  | .rnull4 => Sys2Proof.Machine.execRnull4 s
  | .rnull5 => Sys2Proof.Machine.execRnull5 s
  | .rnull6 => Sys2Proof.Machine.execRnull6 s
  | .rnull7 => Sys2Proof.Machine.execRnull7 s
  | .rdcury => Sys2Proof.Machine.execRdcury s
  | .rdcurx => Sys2Proof.Machine.execRdcurx s
  | .rnullA => Sys2Proof.Machine.execRnullA s
  | .rnullB => Sys2Proof.Machine.execRnullB s
  | .rnullC => Sys2Proof.Machine.execRnullC s
  | .rnullD => Sys2Proof.Machine.execRnullD s
  | .rnullE => Sys2Proof.Machine.execRnullE s
  | .rnullF => Sys2Proof.Machine.execRnullF s

end Sys2Proof.Machine
end

