-- ==== Sys2Proof/Machine/Flags.lean ====
section
/-! DEFINITION. The single flag of the block, `phase` (R27, R34): its toggle, its length, its reading. No operation makes
a carry, zero, overflow or sign (R34). -/

namespace Sys2Proof.Machine

/-- The other phase (R130). -/
def Phase.toggle : Phase → Phase
  | .nonblank => .blank
  | .blank => .nonblank

/-- The flag as a boolean: BLANK is true (R7, R27). -/
def Phase.isBlank : Phase → Bool
  | .nonblank => false
  | .blank => true

/-- How long a phase lasts: `blankTicks` for BLANK, `nonblankTicks` for NONBLANK (R28, R133). -/
def State.ticksOf (s : State) : Phase → Nat
  | .nonblank => s.nonblankTicks
  | .blank => s.blankTicks

end Sys2Proof.Machine
end

