-- ==== Sys2Proof/Machine/Timer.lean ====
section
/-! DEFINITION. The blanking timer (R130 to R142): durations, arming, expiry, and time passing under the Scheduler's
contract (R135). -/

namespace Sys2Proof.Machine

/-- `blankTicks = floor(F * 47 / 10^7)`, exact division of naturals (R131, D9). -/
def blankTicksOf (freq : Nat) : Nat := freq * Config.blankTenths / Config.tenthsPerSecond

/-- `nonblankTicks = floor(F * 588 / 10^7)` (R131, D9). -/
def nonblankTicksOf (freq : Nat) : Nat := freq * Config.nonblankTenths / Config.tenthsPerSecond

/-- `arm(d)`: `armed <- now + d`, the handle replaced whole (R132, R140). -/
def State.arm (s : State) (d : Nat) : State := { s with armed := some (s.now + d) }

/-- The timer callback: the phase toggles and the timer is armed anew for the NEW phase's length (R133, R134). -/
def State.expire (s : State) : State :=
  { s with phase := s.phase.toggle }.arm (s.ticksOf s.phase.toggle)

/-- The deadline of the pending timer, if there is one; nothing is pending before `initialize` (R29, R139). -/
def State.deadline (s : State) : Option Nat := if s.initialised then s.armed else none

/-- An expiry is enabled "when `initialised` and `armed = now`" (R133). -/
def State.expiryDue (s : State) : Bool := s.deadline == some s.now

/-- The Scheduler delivers the expiry: only when it is due (R133, R135). -/
def deliverExpiry (s : State) : Result :=
  if s.expiryDue then .next s.expire else .refused .expiryNotDue

/-- The clock goes on by `n` units (R32). -/
def State.passTime (s : State) (n : Nat) : State := { s with now := s.now + n }

/-- The environment lets `n` units pass. A due expiry runs before time goes on; time stops at a deadline on the way,
and what is left of the `n` units is next (R135 (a), log 8). -/
def advanceTime (n : Nat) (s : State) : Result :=
  match n, s.deadline with
  | 0, _ => .next s
  | n + 1, none => .next (s.passTime (n + 1))
  | n + 1, some d =>
    if d < s.now then .refused .timerOverdue
    else if d = s.now then .next (s.expire.pushInput (.advance (n + 1)))
    else if s.now + (n + 1) ≤ d then .next (s.passTime (n + 1))
    else .next ((s.passTime (d - s.now)).pushInput (.advance (s.now + (n + 1) - d)))

/-- Nothing is handed to the block: before `initialize` it waits; afterwards time passes to the deadline and the expiry
runs there, for ever (R137, log 8). -/
def idle (s : State) : Result :=
  match s.deadline with
  | none => .next s
  | some d =>
    if d < s.now then .refused .timerOverdue
    else if d = s.now then .next s.expire
    else .next (s.passTime (d - s.now))

end Sys2Proof.Machine
end

