-- ==== Sys2Proof/Machine/HostOps.lean ====
section
/-! DEFINITION. The operations with no bus encoding: `reset()`, `initialize(F)` and the four accessors (R120 to R127). -/

namespace Sys2Proof.Machine

/-- `reset()`: every cell 0, nothing else (R120, R170). -/
def hostReset (s : State) : Result := .next s.clearCells

/-- What `initialize(F)` does where its two conditions hold (R121): the durations, NONBLANK, the timer armed for
`nonblankTicks`, `initialised`. -/
def State.startBlanking (s : State) (freq : Nat) : State :=
  { s with
    blankTicks := blankTicksOf freq
    nonblankTicks := nonblankTicksOf freq
    phase := .nonblank
    initialised := true }.arm (nonblankTicksOf freq)

/-- `initialize(F)` (R121): refused a second time (D7) and for a duration of 0 (D8). -/
def hostInitialize (freq : Nat) (s : State) : Result :=
  if s.initialised then .refused .secondInitialize
  else if blankTicksOf freq = 0 then .refused .zeroDuration
  else .next (s.startBlanking freq)

/-- The output `CURSOR_X` (R122, R163). -/
def State.cursorX (s : State) : Byte := s.cell cursorXCell

/-- The output `CURSOR_Y` (R123, R163). -/
def State.cursorY (s : State) : Byte := s.cell cursorYCell

/-- The output `FIRST_ROW`: `(x[0x6] + 1) mod 32` (R124, R163). -/
def State.firstDisplayRow (s : State) : Fin 32 := Fin.ofNat 32 (rowAfter (s.cell scrollOffsetCell))

/-- The output `BLANK`, "valid once initialised" (R125, R163). -/
def State.isBlanking (s : State) : Option Bool := if s.initialised then some s.phase.isBlank else none

/-- `cursorX()` (R122). -/
def readCursorX (s : State) : Result := .next (s.answer (.cursorX s.cursorX))

/-- `cursorY()` (R123). -/
def readCursorY (s : State) : Result := .next (s.answer (.cursorY s.cursorY))

/-- `firstDisplayRow()` (R124). -/
def readFirstDisplayRow (s : State) : Result := .next (s.answer (.firstDisplayRow s.firstDisplayRow))

/-- `isBlanking()` (R125): before `initialize` it has no value and is refused (D6). -/
def readIsBlanking (s : State) : Result :=
  match s.isBlanking with
  | some b => .next (s.answer (.isBlanking b))
  | none => .refused .blankingReadBeforeInitialize

end Sys2Proof.Machine
end

