-- ==== Sys2Proof/Machine/Operation.lean ====
section
/-! DEFINITION. Performing one operation (R10): a bus transaction is decoded and run, the others go to their own
meanings (R72). -/

namespace Sys2Proof.Machine

/-- A transaction word on the bus: decoded and run, or refused (R69). -/
def runBusWord (word : Nat) (s : State) : Result :=
  match decode word with
  | .ok i => exec i s
  | .error _ => .refused .notATransactionWord

/-- One operation, executed "to completion with no preemption" (R10, R47). -/
def perform (e : Input) (s : State) : Result :=
  match e with
  | .bus word => runBusWord word s
  | .hostReset => hostReset s
  | .hostInitialize freq => hostInitialize freq s
  | .cursorX => readCursorX s
  | .cursorY => readCursorY s
  | .firstDisplayRow => readFirstDisplayRow s
  | .isBlanking => readIsBlanking s
  | .expiry => deliverExpiry s
  | .advance units => advanceTime units s

end Sys2Proof.Machine
end

