-- ==== Sys2Proof/Machine/Step.lean ====
section
/-! DEFINITION. One step: the next operation of the one total order (R51), or the block on its own (R137). -/

namespace Sys2Proof.Machine

/-- One operation: the first of `inputs`, taken out and performed; with none, the timer alone. -/
def step (s : State) : Host.Outcome State Fault Refusal :=
  match takeInput s with
  | some (e, s') => perform e s'
  | none => idle s

/-- `s` with the lowest `nbits` bits of `w` as the transaction word the very next step takes from `inputs`. -/
def State.withFetchWord (s : State) (nbits w : Nat) : State := s.pushInput (.bus (w % 2 ^ nbits))

end Sys2Proof.Machine
end

