-- ==== Sys2Proof/Safety.lean ====
section
/-! DEFINITION. What counts as a safe run, in the terms the statements use: the spec's invariants (R37), the contract of
the callers (R69, R121, R125, R133), the timeline of the blanking machine (R136), and short sequences of operations. -/

namespace Sys2Proof.Machine

/-- R37 (b), (c): every cell but 0x6, 0x8, 0x9 is 0, and CursorY is at most 0x3F. -/
def State.bankInv (s : State) : Bool :=
  decide (∀ i : Fin 16, i ≠ 0x6 → i ≠ 0x8 → i ≠ 0x9 → s.cell i = 0#8) && decide ((s.cell 0x8).toNat ≤ 0x3F)

/-- R30 and R37 (e) to (g): nothing is armed before `initialize`; from it on one deadline is pending, not in the past
and no further away than the present phase is long. The two lower bounds are those of R136 (`B >= 1`, `N >= 12`). -/
def State.timerInv (s : State) : Bool :=
  match s.initialised, s.armed with
  | false, none => true
  | true, some d =>
    decide (s.now ≤ d) && decide (d - s.now ≤ s.ticksOf s.phase) && decide (1 ≤ s.blankTicks) && decide (12 ≤ s.nonblankTicks)
  | _, _ => false

/-- The next operation is one the callers may issue in this state (R69, R121, R125, R133). -/
def State.inContract (s : State) : Bool :=
  match s.inputs with
  | [] => true
  | .bus word :: _ => wordWf word
  | .hostInitialize freq :: _ => !s.initialised && decide (212766 ≤ freq)
  | .isBlanking :: _ => s.initialised
  | .expiry :: _ => s.expiryDue
  | .hostReset :: _ | .cursorX :: _ | .cursorY :: _ | .firstDisplayRow :: _ | .advance _ :: _ => true

/-- The phase after `k` expiries: "BLANK for odd `k`, NONBLANK for even `k`" (R136). -/
def phaseAfter (k : Nat) : Phase := if k % 2 = 1 then .blank else .nonblank

/-- When the `k`-th expiry happens: `T0 + ceil(k / 2) * N + floor(k / 2) * B`; `k = 0` is `T0` itself (R136). -/
def expiryTime (t0 n b k : Nat) : Nat := t0 + (k + 1) / 2 * n + k / 2 * b

/-- `initialize` ran at `t0` and `k` expiries have run since: the phase is that of `k`, the timer is armed for expiry
`k + 1`, and the clock lies between the two (R136). -/
structure State.OnTimeline (s : State) (t0 k : Nat) : Prop where
  initialised : s.initialised = true
  phase : s.phase = phaseAfter k
  armed : s.armed = some (expiryTime t0 s.nonblankTicks s.blankTicks (k + 1))
  past : expiryTime t0 s.nonblankTicks s.blankTicks k ≤ s.now
  future : s.now ≤ expiryTime t0 s.nonblankTicks s.blankTicks (k + 1)

/-- The blanking half of the state and the clock are as they were. -/
structure SameTimer (s t : State) : Prop where
  phase : t.phase = s.phase
  blankTicks : t.blankTicks = s.blankTicks
  nonblankTicks : t.nonblankTicks = s.nonblankTicks
  armed : t.armed = s.armed
  initialised : t.initialised = s.initialised
  now : t.now = s.now

/-- The register half of two states is the same: the bank, the count of notifications, the values returned. -/
structure SameRegisters (s t : State) : Prop where
  cells : t.cells = s.cells
  dirty : t.dirty = s.dirty
  answers : t.answers = s.answers

/-- The cells a bus transaction writes (R43); for a transaction that writes none, the empty list. -/
def destCells : Instr → List (Fin 16)
  | .ldlastrow _ | .scrollup _ => [0x6]
  | .ldcurx _ => [0x9]
  | .ldcury _ => [0x8]
  | .ldctl0 _ | .ldctl1 _ | .ldctl2 _ | .ldctl3 _ | .ldctl4 _ | .ldctl5 _ | .procload _ | .wnull8 _ | .wnull9 _
  | .rstcnt _ | .starttim _ | .selfload _ => []
  | .rnull0 | .rnull1 | .rnull2 | .rnull3 | .rnull4 | .rnull5 | .rnull6 | .rnull7 | .rdcury | .rdcurx
  | .rnullA | .rnullB | .rnullC | .rnullD | .rnullE | .rnullF => []

/-- The transaction at the head of the inputs, if the next operation is one the decoder accepts. -/
def State.nextInstr (s : State) : Option Instr :=
  match s.inputs with
  | .bus word :: _ => (decode word).toOption
  | _ => none

/-- Whether the next operation is a bus write. -/
def State.nextIsWrite (s : State) : Bool := s.nextInstr.any Instr.isWrite

/-- One transaction after another. -/
def execAll : List Instr → State → Result
  | [], s => .next s
  | i :: is, s =>
    match exec i s with
    | .next t => execAll is t
    | .fault r => .fault r
    | .refused r => .refused r

/-- The state a meaning or a step goes on to, if it goes on. -/
def nextState : Result → Option State
  | .next t => some t
  | .fault _ => none
  | .refused _ => none

/-- The values returned when these operations are performed one after another and no other, latest first. -/
def answersAfter (ops : List Input) (s : State) : Option (List Answer) :=
  (nextState (core.run ops.length { s with inputs := ops })).map State.answers

/-- The rule of one inert write port: its words, its whole effect, and what a read of the same port returns after it. -/
def InertWritePort (write : Byte → Instr) (read : Instr) (port : Port) (base : Nat)
    (readBack : State → Byte) : Prop :=
  ∀ (value : Byte) (s : State),
    decode (base + value.toNat) = .ok (write value) ∧
    exec (write value) s = .next { s with dirty := s.dirty + 1 } ∧
    exec read { s with dirty := s.dirty + 1 } =
      .next { s with dirty := s.dirty + 1, answers := .read port (readBack s) :: s.answers }

/-- The rule of one read port that returns the constant 0: its words, and its whole effect in every state. -/
def InertReadPort (read : Instr) (port : Port) (base : Nat) : Prop :=
  ∀ (low : Byte) (s : State),
    decode (base + low.toNat) = .ok read ∧
    exec read s = .next { s with answers := .read port 0x00#8 :: s.answers }

end Sys2Proof.Machine
end

