-- ==== Sys2Proof/Certificates/Slice0/Obligations.lean ====
section
/-! DEFINITION. The statements for the provers, from the spec's numbered rules. -/

open Sys2Proof Sys2Proof.Machine

/-! ### Encoding -/

/-- Words written out bit by bit from R61 to R64: `write(0xC, 0x28)`, `write(0xD, 0xFF)`, `write(0x0, 0x5F)`,
`write(0x6, 0x1E)`, `write(0xB, 0x77)`, `read(0x8)`, `read(0x8)` with a low byte (V-R17), `read(0x9)`, `read(0xF)`. -/
def Obligations.WrittenOutWordsDecode : Prop :=
  decode 0b1110000101000 = .ok (.ldcurx 0x28#8) ∧
  decode 0b1110111111111 = .ok (.ldcury 0xFF#8) ∧
  decode 0b1000001011111 = .ok (.ldctl0 0x5F#8) ∧
  decode 0b1011000011110 = .ok (.ldlastrow 0x1E#8) ∧
  decode 0b1101101110111 = .ok (.scrollup 0x77#8) ∧
  decode 0b0100000000000 = .ok .rdcury ∧
  decode 0b0100011111111 = .ok .rdcury ∧
  decode 0b0100100000000 = .ok .rdcurx ∧
  decode 0b0111100000000 = .ok .rnullF

/-- R61 to R64: decoding the word of an instruction gives it back, with every operand byte. The canonical word is the
spec's own notation (D11), and so in the statements on encodings below. -/
def Obligations.DecodeOfEncodeIsTheInstruction : Prop :=
  ∀ i : Instr, decode (encode i).toNat = .ok i

/-- R61, R62: encoding what a word decodes to gives the word back, but for the low byte of a read, which "carries
nothing" and is written as 0. -/
def Obligations.EncodeOfDecodeIsTheWord : Prop :=
  ∀ (w : TransWord) (i : Instr), decodeWord w = some i →
    encode i = if i.isWrite then w else w &&& 0x1F00#13

/-- R63, R64: of the two tables exactly one row selects any given word. -/
def Obligations.EveryWordHasExactlyOneRow : Prop :=
  ∀ w : TransWord, (decodeRows.filter fun r => r.selects w).length = 1

/-- R61: a write's word is `0x1000 + port * 0x100 + value`, read by fields, and every word with bit 12 set is a write. -/
def Obligations.WriteWordFields : Prop :=
  (∀ port value : Nat, port < 16 → value < 256 →
    ∃ i, decode (0x1000 + port * 0x100 + value) = .ok i ∧ i.isWrite = true ∧ i.port.toNat = port ∧
      i.value.toNat = value ∧ (encode i).toNat = 0x1000 + port * 0x100 + value) ∧
  (∀ word : Nat, 0x1000 ≤ word → word < 0x2000 → ∃ i, decode word = .ok i ∧ i.isWrite = true)

/-- R62: a read's word is `port * 0x100`, its low byte ignored by the decoder. -/
def Obligations.ReadWordFields : Prop :=
  ∀ port low : Nat, port < 16 → low < 256 →
    ∃ i, decode (port * 0x100 + low) = .ok i ∧ i.isWrite = false ∧ i.port.toNat = port ∧
      (encode i).toNat = port * 0x100

/-- R69: a call with a port above 15 or a value above 255 is refused, neither clamped nor wrapped, and so is a word of
more than 13 bits; every call and every word within the ranges is taken. Refusing is the spec's decision D10, made here with
numbers wider than the fields (log 13). -/
def Obligations.OutOfContractIsRefused : Prop :=
  (∀ port value : Nat, 16 ≤ port → wordOfWriteCall port value = .error .portOutOfRange) ∧
  (∀ port value : Nat, port < 16 → 256 ≤ value → wordOfWriteCall port value = .error .valueOutOfRange) ∧
  (∀ port : Nat, 16 ≤ port → wordOfReadCall port = .error .portOutOfRange) ∧
  (∀ port value : Nat, port < 16 → value < 256 → wordOfWriteCall port value = .ok (0x1000 + port * 0x100 + value)) ∧
  (∀ port : Nat, port < 16 → wordOfReadCall port = .ok (port * 0x100)) ∧
  (∀ word : Nat, 0x2000 ≤ word → decode word = .error .notATransactionWord) ∧
  (∀ word : Nat, word < 0x2000 → ∃ i, decode word = .ok i)

/-! ### The step -/

/-- A step whose next operation is a bus word runs the instruction the word decodes to, on the state without that
operation; the step adds nothing else (the operation stream is the model's own, log 2). -/
def Obligations.StepRunsTheDecodedInstruction : Prop :=
  ∀ (s : State) (word : Nat) (rest : List Input) (i : Instr),
    s.inputs = .bus word :: rest → decode word = .ok i → step s = exec i { s with inputs := rest }

/-- A step whose next operation is a word the decoder refuses is refused by name (R69; D10, log 13). -/
def Obligations.StepRefusesAWordThatIsNoTransaction : Prop :=
  ∀ (s : State) (word : Nat) (rest : List Input),
    s.inputs = .bus word :: rest → 0x2000 ≤ word → step s = .refused .notATransactionWord

/-- The word of any instruction, placed as the next transaction, runs as exactly that instruction (logs 2
and 26). -/
def Obligations.PlacedWordRunsAsItsInstruction : Prop :=
  ∀ (i : Instr) (s : State), step (s.withFetchWord 16 (encode i).toNat) = exec i s

/-! ### Write ports -/

/-- R81 to R86, R88 to R91, R95, R96: the twelve inert write ports complete in every state, change nothing but the
FrameSink's count, and the port read back gives 0 (the cursor cell at ports 0x8 and 0x9). -/
def Obligations.InertWritesOnlyNotify : Prop :=
  InertWritePort .ldctl0 .rnull0 0x0#4 0x1000 (fun _ => 0#8) ∧
  InertWritePort .ldctl1 .rnull1 0x1#4 0x1100 (fun _ => 0#8) ∧
  InertWritePort .ldctl2 .rnull2 0x2#4 0x1200 (fun _ => 0#8) ∧
  InertWritePort .ldctl3 .rnull3 0x3#4 0x1300 (fun _ => 0#8) ∧
  InertWritePort .ldctl4 .rnull4 0x4#4 0x1400 (fun _ => 0#8) ∧
  InertWritePort .ldctl5 .rnull5 0x5#4 0x1500 (fun _ => 0#8) ∧
  InertWritePort .procload .rnull7 0x7#4 0x1700 (fun _ => 0#8) ∧
  InertWritePort .wnull8 .rdcury 0x8#4 0x1800 (fun s => s.cell 0x8) ∧
  InertWritePort .wnull9 .rdcurx 0x9#4 0x1900 (fun s => s.cell 0x9) ∧
  InertWritePort .rstcnt .rnullA 0xA#4 0x1A00 (fun _ => 0#8) ∧
  InertWritePort .starttim .rnullE 0xE#4 0x1E00 (fun _ => 0#8) ∧
  InertWritePort .selfload .rnullF 0xF#4 0x1F00 (fun _ => 0#8)

/-- R87: `LDLASTROW` stores all 8 bits, whatever the value; the first displayed row is then `(value + 1) mod 32`; the
port reads back 0; a scroll-up after it, or a later load below 32, brings the cell below 32. -/
def Obligations.LoadLastRowStoresTheByte : Prop :=
  ∀ (value : Byte) (s : State), ∃ t,
    decode (0x1600 + value.toNat) = .ok (.ldlastrow value) ∧
    exec (.ldlastrow value) s = .next t ∧
    t = { s with cells := s.cells.set 0x6 value, dirty := s.dirty + 1 } ∧
    t.cell 0x6 = value ∧
    t.firstDisplayRow.val = (value.toNat + 1) % 32 ∧
    exec .rnull6 t = .next { t with answers := .read 0x6#4 0#8 :: t.answers } ∧
    (∀ value', ∃ u, exec (.scrollup value') t = .next u ∧ (u.cell 0x6).toNat < 32) ∧
    (∀ value' : Byte, value'.toNat < 32 → ∃ u, exec (.ldlastrow value') t = .next u ∧ (u.cell 0x6).toNat < 32)

/-- R92: `SCROLLUP` makes cell 0x6 `(x[0x6] + 1) mod 32` whatever the value, from any cell value and whatever port 0x3
was written with; a read of port 0xB does not scroll; `n` commands add `n` modulo 32 and notify `n` times. -/
def Obligations.ScrollUpIsAModularIncrement : Prop :=
  (∀ (value : Byte) (s : State), ∃ t,
    decode (0x1B00 + value.toNat) = .ok (.scrollup value) ∧
    exec (.scrollup value) s = .next t ∧
    t = { s with cells := s.cells.set 0x6 (t.cell 0x6), dirty := s.dirty + 1 } ∧
    (t.cell 0x6).toNat = ((s.cell 0x6).toNat + 1) % 32 ∧
    t.firstDisplayRow.val = ((s.cell 0x6).toNat + 2) % 32 ∧
    exec .rnullB s = .next { s with answers := .read 0xB#4 0#8 :: s.answers }) ∧
  (∀ (values : List Byte) (s : State), values ≠ [] → ∃ t,
    execAll (values.map Instr.scrollup) s = .next t ∧
    t = { s with cells := s.cells.set 0x6 (t.cell 0x6), dirty := s.dirty + values.length } ∧
    (t.cell 0x6).toNat = ((s.cell 0x6).toNat + values.length) % 32 ∧
    t.firstDisplayRow.val = ((s.cell 0x6).toNat + values.length + 1) % 32)

/-- R93: `LDCURX` stores the byte whole, leaves CursorY, is read back at port 0x9 and not at port 0xC. -/
def Obligations.LoadCursorXStoresTheByte : Prop :=
  ∀ (value : Byte) (s : State), ∃ t,
    decode (0x1C00 + value.toNat) = .ok (.ldcurx value) ∧
    exec (.ldcurx value) s = .next t ∧
    t = { s with cells := s.cells.set 0x9 value, dirty := s.dirty + 1 } ∧
    t.cursorX = value ∧ t.cursorY = s.cursorY ∧
    exec .rdcurx t = .next { t with answers := .read 0x9#4 value :: t.answers } ∧
    exec .rnullC t = .next { t with answers := .read 0xC#4 0#8 :: t.answers }

/-- R94: `LDCURY` stores `value mod 64` with bits 7:6 of the cell 0, leaves CursorX, is not reduced modulo 32, is read
back at port 0x8 and not at port 0xD. -/
def Obligations.LoadCursorYStoresSixBits : Prop :=
  ∀ (value : Byte) (s : State), ∃ t,
    decode (0x1D00 + value.toNat) = .ok (.ldcury value) ∧
    exec (.ldcury value) s = .next t ∧
    t = { s with cells := s.cells.set 0x8 (value &&& 0x3F#8), dirty := s.dirty + 1 } ∧
    t.cursorY.toNat = value.toNat % 64 ∧ t.cursorX = s.cursorX ∧
    exec .rdcury t = .next { t with answers := .read 0x8#4 (value &&& 0x3F#8) :: t.answers } ∧
    exec .rnullD t = .next { t with answers := .read 0xD#4 0#8 :: t.answers }

/-- R97 (d): two writes whose registers differ commute; `LDLASTROW` and `SCROLLUP` do not. -/
def Obligations.WritesToDifferentCellsCommute : Prop :=
  (∀ (i j : Instr) (s : State), i.isWrite = true → j.isWrite = true → (∀ c ∈ destCells i, c ∉ destCells j) →
    execAll [i, j] s = execAll [j, i] s) ∧
  (∃ (v w : Byte) (s : State), execAll [.ldlastrow v, .scrollup w] s ≠ execAll [.scrollup w, .ldlastrow v] s)

/-- R97 (e), R80: a sequence of writes, whatever their ports and values, completes and notifies once for each. -/
def Obligations.EveryWriteNotifiesOnce : Prop :=
  ∀ (is : List Instr) (s : State), (∀ i ∈ is, i.isWrite = true) →
    ∃ t, execAll is s = .next t ∧ t.dirty = s.dirty + is.length ∧ SameTimer s t ∧ t.answers = s.answers

/-! ### Read ports -/

/-- R101 to R108: reads of ports 0x0 to 0x7 return 0 in every state and change nothing. -/
def Obligations.LowInertReadsReturnZero : Prop :=
  InertReadPort .rnull0 0x0#4 0x0000 ∧ InertReadPort .rnull1 0x1#4 0x0100 ∧
  InertReadPort .rnull2 0x2#4 0x0200 ∧ InertReadPort .rnull3 0x3#4 0x0300 ∧
  InertReadPort .rnull4 0x4#4 0x0400 ∧ InertReadPort .rnull5 0x5#4 0x0500 ∧
  InertReadPort .rnull6 0x6#4 0x0600 ∧ InertReadPort .rnull7 0x7#4 0x0700

/-- R111 to R116: reads of ports 0xA to 0xF return 0 in every state and change nothing; 0xB does not scroll, 0xC and
0xD do not return the cursor. -/
def Obligations.HighInertReadsReturnZero : Prop :=
  InertReadPort .rnullA 0xA#4 0x0A00 ∧ InertReadPort .rnullB 0xB#4 0x0B00 ∧
  InertReadPort .rnullC 0xC#4 0x0C00 ∧ InertReadPort .rnullD 0xD#4 0x0D00 ∧
  InertReadPort .rnullE 0xE#4 0x0E00 ∧ InertReadPort .rnullF 0xF#4 0x0F00

/-- R109, R110: reads of ports 0x8 and 0x9 return the cursor cells and change nothing: 0 after `reset()`, the loaded
byte (its low six bits for Y) after a load, unmoved by a write to the same port, the power-on byte before any of these. -/
def Obligations.CursorReadsReturnTheCells : Prop :=
  (∀ (low : Byte) (s : State),
    decode (0x0800 + low.toNat) = .ok .rdcury ∧ decode (0x0900 + low.toNat) = .ok .rdcurx ∧
    exec .rdcury s = .next { s with answers := .read 0x8#4 (s.cell 0x8) :: s.answers } ∧
    exec .rdcurx s = .next { s with answers := .read 0x9#4 (s.cell 0x9) :: s.answers } ∧
    s.cell 0x8 = s.cursorY ∧ s.cell 0x9 = s.cursorX) ∧
  (∀ s : State, ∃ t, hostReset s = .next t ∧
    exec .rdcury t = .next { t with answers := .read 0x8#4 0#8 :: t.answers } ∧
    exec .rdcurx t = .next { t with answers := .read 0x9#4 0#8 :: t.answers }) ∧
  (∀ (v : Byte) (s : State), ∃ t u,
    execAll [.ldcury v, .rdcury] s = .next t ∧ t.answers = .read 0x8#4 (v &&& 0x3F#8) :: s.answers ∧
    execAll [.ldcurx v, .rdcurx] s = .next u ∧ u.answers = .read 0x9#4 v :: s.answers) ∧
  (∀ (v : Byte) (s : State), ∃ t u,
    execAll [.wnull8 v, .rdcury] s = .next t ∧ t.answers = .read 0x8#4 (s.cell 0x8) :: s.answers ∧
    execAll [.wnull9 v, .rdcurx] s = .next u ∧ u.answers = .read 0x9#4 (s.cell 0x9) :: s.answers) ∧
  exec .rdcury State.powerOn = .next { State.powerOn with answers := [.read 0x8#4 (Config.powerOnCell 0x8)] } ∧
  exec .rdcurx State.powerOn = .next { State.powerOn with answers := [.read 0x9#4 (Config.powerOnCell 0x9)] }

/-! ### All bus transactions -/

/-- R42, R43: every transaction completes, and is the read primitive or the write primitive at its port. -/
def Obligations.TransactionsAreTheBusPrimitives : Prop :=
  ∀ (i : Instr) (s : State),
    exec i s = if i.isWrite then .next (memWrite i.port i.value s)
      else .next (s.answer (.read i.port (memRead i.port s)))

/-- R39 (rows `write`, `read`), R9: what a transaction leaves as it was. Every cell but the destination cell of the four
ports that have one reads as before; the blanking state, the clock and the operations still to come are unchanged; a
write adds one notification and returns nothing; a read adds none and changes no cell at all. -/
def Obligations.TransactionFrame : Prop :=
  ∀ (i : Instr) (s t : State), exec i s = .next t →
    (∀ c : Fin 16, c ∉ destCells i → t.cell c = s.cell c) ∧
    SameTimer s t ∧ t.inputs = s.inputs ∧
    (i.isWrite = true → t.dirty = s.dirty + 1 ∧ t.answers = s.answers) ∧
    (i.isWrite = false → t.dirty = s.dirty ∧ t.cells = s.cells ∧
      ∃ b : Byte, t.answers = .read i.port b :: s.answers)

/-- R138, from the register side: what a transaction or a `reset()` does to the registers depends on the register half
alone, and it leaves the timer half alone. The converse is `TimerHalfIsIndependentOfTheRegisters`. -/
def Obligations.RegisterHalfIsIndependentOfTheTimer : Prop :=
  ∀ (e : Input) (s s' t : State),
    (e = .hostReset ∨ ∃ word, e = .bus word) → SameRegisters s s' → perform e s = .next t →
    SameTimer s t ∧ ∃ t', perform e s' = .next t' ∧ SameRegisters t t' ∧ SameTimer s' t'

/-- R138 "Conversely the timer touches no cell", from the timer side: what `initialize`, an expiry, the passing of time or
an idle step does to the timer depends on the timer half alone, whether it completes or is refused, and it leaves the
register half alone; and the answer of `isBlanking()` depends on the timer half alone. The forms of the expiry, of time
passing and of the idle step are the model's (logs 4, 8, 22 and 23). -/
def Obligations.TimerHalfIsIndependentOfTheRegisters : Prop :=
  ∀ s s' : State, SameTimer s s' →
    (∀ e : Input, (e = .expiry ∨ (∃ freq, e = .hostInitialize freq) ∨ ∃ n, e = .advance n) →
      (∀ t, perform e s = .next t → SameRegisters s t ∧
        ∃ t', perform e s' = .next t' ∧ SameTimer t t' ∧ SameRegisters s' t') ∧
      (∀ r, perform e s = .refused r → perform e s' = .refused r)) ∧
    (∀ t, idle s = .next t → SameRegisters s t ∧ ∃ t', idle s' = .next t' ∧ SameTimer t t' ∧ SameRegisters s' t') ∧
    (∀ r, idle s = .refused r → idle s' = .refused r) ∧
    (∀ t, perform .isBlanking s = .next t → ∃ b, t = s.answer (.isBlanking b) ∧
      perform .isBlanking s' = .next (s'.answer (.isBlanking b))) ∧
    (∀ r, perform .isBlanking s = .refused r → perform .isBlanking s' = .refused r)

/-- R52: each change is seen by the very next operation: cursor X at read port 0x9 and `cursorX()`, cursor Y at read
port 0x8 and `cursorY()`, a scroll load and a scroll-up at `firstDisplayRow()`, a `reset()` by all of these, a phase
change by `isBlanking()`. -/
def Obligations.ChangesAreVisibleAtOnce : Prop :=
  ∀ (s : State) (v : Byte),
    answersAfter [.bus (0x1C00 + v.toNat), .bus 0x0900] s = some (.read 0x9#4 v :: s.answers) ∧
    answersAfter [.bus (0x1C00 + v.toNat), .cursorX] s = some (.cursorX v :: s.answers) ∧
    answersAfter [.bus (0x1D00 + v.toNat), .bus 0x0800] s = some (.read 0x8#4 (v &&& 0x3F#8) :: s.answers) ∧
    answersAfter [.bus (0x1D00 + v.toNat), .cursorY] s = some (.cursorY (v &&& 0x3F#8) :: s.answers) ∧
    answersAfter [.bus (0x1600 + v.toNat), .firstDisplayRow] s =
      some (.firstDisplayRow (Fin.ofNat 32 (v.toNat + 1)) :: s.answers) ∧
    answersAfter [.bus (0x1B00 + v.toNat), .firstDisplayRow] s =
      some (.firstDisplayRow (Fin.ofNat 32 ((s.cell 0x6).toNat + 2)) :: s.answers) ∧
    answersAfter [.hostReset, .bus 0x0800, .bus 0x0900, .cursorX, .cursorY, .firstDisplayRow] s =
      some (.firstDisplayRow 1 :: .cursorY 0#8 :: .cursorX 0#8 :: .read 0x9#4 0#8 :: .read 0x8#4 0#8 :: s.answers) ∧
    (s.initialised = true → s.armed = some s.now →
      answersAfter [.expiry, .isBlanking] s = some (.isBlanking (!s.phase.isBlank) :: s.answers)) ∧
    (s.initialised = false → ∀ freq, 212766 ≤ freq →
      answersAfter [.hostInitialize freq, .isBlanking] s = some (.isBlanking false :: s.answers))

/-! ### Host operations -/

/-- R170: `reset()` completes in every state, clears the 16 cells and nothing else; both cursor reads then give 0, both
cursors are 0 and the first displayed row is 1. -/
def Obligations.HostResetClearsTheBankAlone : Prop :=
  ∀ (s : State) (rest : List Input), s.inputs = .hostReset :: rest → ∃ t,
    step s = .next t ∧ t = { s with inputs := rest, cells := Vector.replicate 16 0#8 } ∧
    (∀ i : Fin 16, t.cell i = 0#8) ∧ t.cursorX = 0#8 ∧ t.cursorY = 0#8 ∧ (t.cell 0x6) = 0#8 ∧
    t.firstDisplayRow.val = 1 ∧
    exec .rdcury t = .next { t with answers := .read 0x8#4 0#8 :: t.answers } ∧
    exec .rdcurx t = .next { t with answers := .read 0x9#4 0#8 :: t.answers } ∧
    SameTimer s t ∧ t.dirty = s.dirty ∧ hostReset t = .next t

/-- R36, R171: `State.reset` is what the first `reset()` makes of power-on. The values of the phase, the durations, the
clock and the count in both states are the model's choice (logs 6 and 7). -/
def Obligations.FirstHostResetGivesTheResetState : Prop :=
  hostReset State.powerOn = .next State.reset ∧
  State.reset.initialised = false ∧ State.reset.armed = none ∧ ∀ i : Fin 16, State.reset.cell i = 0#8

/-- R121: `initialize(F)` in its contract completes with the durations of `F`, NONBLANK, one timer armed `nonblankTicks`
ahead, and touches neither cell nor count. Nothing else in the state changes. -/
def Obligations.HostInitializeStartsInNonblank : Prop :=
  ∀ (s : State) (freq : Nat) (rest : List Input),
    s.inputs = .hostInitialize freq :: rest → s.initialised = false → 212766 ≤ freq →
    step s = .next { s with
      inputs := rest
      phase := .nonblank
      blankTicks := freq * 47 / 10 ^ 7
      nonblankTicks := freq * 588 / 10 ^ 7
      armed := some (s.now + freq * 588 / 10 ^ 7)
      initialised := true }

/-- R121, corner cases (c) and (d): a second `initialize` is refused, and so is a frequency whose blanking duration is
0, which is exactly one below 212766. Both refusals are the spec's decisions (D7, log 11; D8, log 12). -/
def Obligations.HostInitializeRefusals : Prop :=
  ∀ (s : State) (freq : Nat) (rest : List Input), s.inputs = .hostInitialize freq :: rest →
    (s.initialised = true → step s = .refused .secondInitialize) ∧
    (s.initialised = false → freq < 212766 → step s = .refused .zeroDuration) ∧
    (blankTicksOf freq = 0 ↔ freq < 212766) ∧ (nonblankTicksOf freq = 0 ↔ freq < 17007) ∧
    (212766 ≤ freq → 12 ≤ nonblankTicksOf freq)

/-- R131: the two durations, the second form of the longer one, the table of values, and how far each period falls short
of 63.5 µs. The division is exact, the spec's decision D9 (log 14). -/
def Obligations.DurationsAreFlooredSeparately : Prop :=
  (∀ freq : Nat, blankTicksOf freq = freq * 47 / 10000000 ∧ nonblankTicksOf freq = freq * 588 / 10000000 ∧
    nonblankTicksOf freq = freq * 147 / 2500000 ∧
    nonblankTicksOf freq + blankTicksOf freq ≤ freq * 635 / 10000000 ∧
    freq * 635 / 10000000 ≤ nonblankTicksOf freq + blankTicksOf freq + 1) ∧
  [17006, 17007, 212765, 212766, 1000000, 2000000, 2500000, 4000000, 10000000].map
      (fun freq => (blankTicksOf freq, nonblankTicksOf freq)) =
    [(0, 0), (0, 1), (0, 12), (1, 12), (4, 58), (9, 117), (11, 147), (18, 235), (47, 588)]

/-- R122, R123: `cursorX()` and `cursorY()` return the cells, agree with the two cursor reads in every state, and change
nothing. -/
def Obligations.CursorAccessorsReturnTheCells : Prop :=
  ∀ (s : State) (rest : List Input),
    step { s with inputs := .cursorX :: rest } =
      .next { s with inputs := rest, answers := .cursorX (s.cell 0x9) :: s.answers } ∧
    step { s with inputs := .cursorY :: rest } =
      .next { s with inputs := rest, answers := .cursorY (s.cell 0x8) :: s.answers } ∧
    exec .rdcurx s = .next (s.answer (.read 0x9#4 s.cursorX)) ∧
    exec .rdcury s = .next (s.answer (.read 0x8#4 s.cursorY))

/-- R124: `firstDisplayRow()` returns `(x[0x6] + 1) mod 32` for every cell value and changes nothing; `n` scroll-ups
later it is `n` further. -/
def Obligations.FirstDisplayRowIsOffsetPlusOne : Prop :=
  (∀ (s : State) (rest : List Input), ∃ row : Fin 32,
    step { s with inputs := .firstDisplayRow :: rest } =
      .next { s with inputs := rest, answers := .firstDisplayRow row :: s.answers } ∧
    row.val = ((s.cell 0x6).toNat + 1) % 32) ∧
  State.reset.firstDisplayRow.val = 1 ∧
  (∀ (value : Byte) (s t : State), exec (.ldlastrow value) s = .next t →
    t.firstDisplayRow.val = (value.toNat + 1) % 32) ∧
  (∀ (values : List Byte) (s t : State), execAll (values.map Instr.scrollup) s = .next t →
    t.firstDisplayRow.val = ((s.cell 0x6).toNat + values.length + 1) % 32)

/-- R125: `isBlanking()` returns whether the phase is BLANK once `initialize` has run and changes nothing; before that it
is refused, the spec's decision D6 (log 10). -/
def Obligations.IsBlankingReadsThePhase : Prop :=
  ∀ (s : State) (rest : List Input), s.inputs = .isBlanking :: rest →
    (s.initialised = true → step s =
      .next { s with inputs := rest, answers := .isBlanking (decide (s.phase = .blank)) :: s.answers }) ∧
    (s.initialised = false → step s = .refused .blankingReadBeforeInitialize)

/-! ### The blanking timer -/

/-- R133: a due expiry toggles the phase and arms the NEW phase's duration from the present time, and changes nothing
else (no cell, no count, no clock). -/
def Obligations.ExpiryTogglesAndRearms : Prop :=
  (∀ (s : State) (rest : List Input), s.inputs = .expiry :: rest → s.initialised = true → s.armed = some s.now →
    s.phase = .nonblank →
    step s = .next { s with inputs := rest, phase := .blank, armed := some (s.now + s.blankTicks) }) ∧
  (∀ (s : State) (rest : List Input), s.inputs = .expiry :: rest → s.initialised = true → s.armed = some s.now →
    s.phase = .blank →
    step s = .next { s with inputs := rest, phase := .nonblank, armed := some (s.now + s.nonblankTicks) })

/-- R133 "Enabled when `initialised` and `armed = now`": an expiry handed over at any other time is refused, which is
the model's choice (log 22). -/
def Obligations.ExpiryOnlyWhenDue : Prop :=
  ∀ (s : State) (rest : List Input), s.inputs = .expiry :: rest → ¬(s.initialised = true ∧ s.armed = some s.now) →
    step s = .refused .expiryNotDue

/-- R135 (a): "when `now = armed` the expiry must run before `now` advances further". The request to let time pass stays
where it is (log 8). -/
def Obligations.DueExpiryRunsBeforeTimePasses : Prop :=
  ∀ s : State, s.initialised = true → s.armed = some s.now →
    (∀ (n : Nat) (rest : List Input), s.inputs = .advance (n + 1) :: rest → step s = .next s.expire) ∧
    (s.inputs = [] → step s = .next s.expire)

/-- R135 (a): the clock takes "any value not above `armed`", and stops at the deadline on the way; before `initialize`
nothing stops it (R139). What is left of the time asked for is next (log 8). -/
def Obligations.TimeStopsAtTheDeadline : Prop :=
  (∀ (s : State) (n d : Nat) (rest : List Input), s.inputs = .advance n :: rest → s.initialised = true →
    s.armed = some d → s.now < d →
    step s = if s.now + n ≤ d then .next { s with inputs := rest, now := s.now + n }
      else .next { s with inputs := .advance (s.now + n - d) :: rest, now := d }) ∧
  (∀ (s : State) (n : Nat) (rest : List Input), s.inputs = .advance n :: rest → s.initialised = false →
    step s = .next { s with inputs := rest, now := s.now + n })

/-- R32, R135 (a), R9: no step turns the clock back or carries it past a pending deadline, and only letting time pass
moves it. -/
def Obligations.ClockNeverPassesADeadline : Prop :=
  ∀ s t : State, s.timerInv = true → step s = .next t →
    s.now ≤ t.now ∧ (∀ d, s.initialised = true → s.armed = some d → t.now ≤ d) ∧
    (t.now ≠ s.now → s.inputs = [] ∨ ∃ n rest, s.inputs = .advance n :: rest)

/-- R137: with nothing handed over, the initialised block goes on by itself: within two steps the clock reaches the
deadline, the phase toggles there, and a new deadline is armed at least one unit ahead. That time then passes by itself
is the model's choice (log 8). -/
def Obligations.TimerNeverStops : Prop :=
  ∀ (s : State) (d : Nat), s.timerInv = true → s.initialised = true → s.armed = some d → s.inputs = [] →
    ∃ k t, k ≤ 2 ∧ core.run k s = .next t ∧ t.now = d ∧ t.phase = s.phase.toggle ∧
      t.armed = some (d + s.ticksOf s.phase.toggle) ∧ t.timerInv = true ∧
      t.cells = s.cells ∧ t.dirty = s.dirty ∧ t.inputs = []

/-- Letting any length of time pass ends, however many expiries fall inside, and touches no register (R135, R137; the
request's form is the model's, log 8). -/
def Obligations.AdvanceRunsToItsEnd : Prop :=
  ∀ (s : State) (n : Nat) (rest : List Input), s.timerInv = true → s.inputs = .advance n :: rest →
    ∃ k t, core.run k s = .next t ∧ t.inputs = rest ∧ t.now = s.now + n ∧ SameRegisters s t ∧
      t.initialised = s.initialised ∧ t.timerInv = true

/-- R136: the timeline of the blanking machine is kept by every step, whatever operations are handed over in between:
either no expiry runs and the count stays, or a due one runs and the count goes up by one. -/
def Obligations.EveryStepKeepsTheTimeline : Prop :=
  ∀ (s t : State) (t0 k : Nat), s.timerInv = true → s.OnTimeline t0 k → step s = .next t →
    t.OnTimeline t0 k ∨ (s.expiryDue = true ∧ t.phase = s.phase.toggle ∧ t.OnTimeline t0 (k + 1))

/-- R136: `initialize(F)` at `T0 = now` starts the timeline of `T0`. -/
def Obligations.HostInitializeStartsTheTimeline : Prop :=
  ∀ (s : State) (freq : Nat) (rest : List Input),
    s.inputs = .hostInitialize freq :: rest → s.initialised = false → 212766 ≤ freq →
    ∃ t, step s = .next t ∧ t.OnTimeline s.now 0 ∧ t.timerInv = true

/-- R136: on the timeline of `T0` the phase between transitions is the closed form's: with `d = (t - T0) mod P`, NONBLANK
for `0 < d < N` and at `T0` itself, BLANK for `N < d < P`. At the transition instants it says nothing ("either"). -/
def Obligations.PhaseIsTheClosedForm : Prop :=
  ∀ (s : State) (t0 k : Nat), s.timerInv = true → s.OnTimeline t0 k →
    let d := (s.now - t0) % (s.nonblankTicks + s.blankTicks)
    (s.now = t0 → s.phase = .nonblank) ∧
    (0 < d → d < s.nonblankTicks → s.phase = .nonblank) ∧
    (s.nonblankTicks < d → s.phase = .blank)

/-- R121, R135, R136 from end to end: `initialize(F)`, any length of time, then `isBlanking()`. The run ends, no register
has moved, and the answer is the closed form's at every instant that is no transition. The request's form is the
model's (log 8). -/
def Obligations.BlankingAnswerAfterAnyDelay : Prop :=
  ∀ (s : State) (freq n : Nat) (rest : List Input), s.initialised = false → 212766 ≤ freq →
    s.inputs = .hostInitialize freq :: .advance n :: .isBlanking :: rest →
    ∃ (k : Nat) (t : State) (b : Bool), core.run k s = .next t ∧ t.inputs = rest ∧ t.now = s.now + n ∧
      t.answers = .isBlanking b :: s.answers ∧ t.cells = s.cells ∧ t.dirty = s.dirty ∧
      (n = 0 → b = false) ∧
      (0 < n % (freq * 588 / 10 ^ 7 + freq * 47 / 10 ^ 7) →
        n % (freq * 588 / 10 ^ 7 + freq * 47 / 10 ^ 7) < freq * 588 / 10 ^ 7 → b = false) ∧
      (freq * 588 / 10 ^ 7 < n % (freq * 588 / 10 ^ 7 + freq * 47 / 10 ^ 7) → b = true)

/-- R155: at an instant where an expiry is due both orders are in the model, and `isBlanking()` tells them apart
(TIE_ORDER `either`, the spec's decision D4; the orders stand in the stream, log 4). -/
def Obligations.BothOrdersAtATransition : Prop :=
  ∀ s : State, s.initialised = true → s.armed = some s.now →
    answersAfter [.isBlanking, .expiry] s = some (.isBlanking s.phase.isBlank :: s.answers) ∧
    answersAfter [.expiry, .isBlanking] s = some (.isBlanking (!s.phase.isBlank) :: s.answers)

/-- R155: "Only `isBlanking()` can tell the two orders apart; every other operation commutes with the expiry". A second
`initialize` ends in the same refusal in both orders (D7, log 11). -/
def Obligations.ExpiryCommutesWithTheRest : Prop :=
  ∀ (s : State) (e : Input) (rest : List Input), s.initialised = true → s.armed = some s.now →
    ((∃ word, e = .bus word) ∨ e = .hostReset ∨ (∃ freq, e = .hostInitialize freq) ∨ e = .cursorX ∨ e = .cursorY ∨
      e = .firstDisplayRow) →
    core.run 2 { s with inputs := .expiry :: e :: rest } = core.run 2 { s with inputs := e :: .expiry :: rest }

/-! ### Invariants and whole-machine rules -/

/-- R37 (b), (c): every step keeps the bank's invariant. -/
def Obligations.EveryStepKeepsTheBankInvariant : Prop :=
  ∀ s t : State, s.bankInv = true → step s = .next t → t.bankInv = true

/-- R37 (e), (f), (g) and R30: every step keeps the timer's invariant. -/
def Obligations.EveryStepKeepsTheTimerInvariant : Prop :=
  ∀ s t : State, s.timerInv = true → step s = .next t → t.timerInv = true

/-- Both invariants hold right after reset, and from power-on only the bank's is missing until the first `reset()`. -/
def Obligations.ResetStateMeetsTheInvariants : Prop :=
  State.reset.bankInv = true ∧ State.reset.timerInv = true ∧ State.powerOn.timerInv = true

/-- R25, R37 (d): only a write to port 0x6 of a value of 32 or more brings the scroll offset to 32 or more, and every
write to port 0xB brings it below. -/
def Obligations.ScrollOffsetLeavesItsRangeOnlyByALoad : Prop :=
  ∀ s t : State, step s = .next t →
    ((s.cell 0x6).toNat < 32 → (t.cell 0x6).toNat < 32 ∨
      ∃ value : Byte, s.nextInstr = some (.ldlastrow value) ∧ 32 ≤ value.toNat) ∧
    (∀ value : Byte, s.nextInstr = some (.scrollup value) → (t.cell 0x6).toNat < 32) ∧
    (∀ value : Byte, s.nextInstr = some (.ldlastrow value) → value.toNat < 32 → (t.cell 0x6).toNat < 32)

/-- R21, R39: a cell changes only by `reset()` or by a write to port 0x6, 0xB, 0xC or 0xD, and then only that port's
cell. -/
def Obligations.OnlyWritesAndResetChangeACell : Prop :=
  ∀ (s t : State) (c : Fin 16), step s = .next t → t.cell c ≠ s.cell c →
    (∃ rest, s.inputs = .hostReset :: rest) ∨ (∃ i, s.nextInstr = some i ∧ i.isWrite = true ∧ c ∈ destCells i)

/-- R154: a step adds exactly one notification if its operation is a bus write, and none otherwise. -/
def Obligations.NotificationsCountTheBusWrites : Prop :=
  ∀ s t : State, step s = .next t → t.dirty = s.dirty + if s.nextIsWrite then 1 else 0

/-- R27: the phase changes only by `initialize`, to NONBLANK, or by a due expiry, which toggles it. -/
def Obligations.OnlyInitializeAndExpiryChangeThePhase : Prop :=
  ∀ s t : State, step s = .next t → t.phase ≠ s.phase →
    (s.initialised = false ∧ t.phase = .nonblank ∧ ∃ freq rest, s.inputs = .hostInitialize freq :: rest) ∨
    (s.expiryDue = true ∧ t.phase = s.phase.toggle)

/-- R28, R30: `initialised` is set by `initialize` alone and never cleared, and from then on the durations never
change. -/
def Obligations.DurationsAreSetOnce : Prop :=
  ∀ s t : State, step s = .next t →
    (s.initialised = true → t.initialised = true ∧ t.blankTicks = s.blankTicks ∧ t.nonblankTicks = s.nonblankTicks) ∧
    (s.initialised = false → t.initialised = true → ∃ freq rest, s.inputs = .hostInitialize freq :: rest)

/-- R30, R139: before `initialize` no step depends on what stands in the phase and the two durations: with any other
values there the step answers the same, and the next state differs in those three fields at most, in none of them once
`initialize` has run. So the values the model gives them at reset (log 6) show nowhere. -/
def Obligations.NothingReadsTheBlankingStateBeforeInitialize : Prop :=
  ∀ (s : State) (p : Phase) (b n : Nat), s.initialised = false →
    (∀ r, step s = .refused r → step { s with phase := p, blankTicks := b, nonblankTicks := n } = .refused r) ∧
    (∀ t, step s = .next t → t.initialised = true →
      step { s with phase := p, blankTicks := b, nonblankTicks := n } = .next t) ∧
    (∀ t, step s = .next t → t.initialised = false →
      step { s with phase := p, blankTicks := b, nonblankTicks := n } =
        .next { t with phase := p, blankTicks := b, nonblankTicks := n })

/-- R150 "all operations are synchronous and total over their declared domain": every operation within its contract
completes. That a step with no operation left (log 23, and log 8 once the timer runs) and a request to let time pass
(log 8) count as within the contract, and complete, is the model's choice: R150 does not speak of them. -/
def Obligations.OperationsWithinTheContractComplete : Prop :=
  ∀ s : State, s.timerInv = true → s.inContract = true → ∃ t, step s = .next t

/-- The refusals are the spec's and no others, each only where the spec has it (R69, R121, R125, R133); in particular no
transaction is refused as not modelled, and no deadline is ever overdue. That an expiry not due is refused is the model's
(log 22). -/
def Obligations.RefusalsAreTheSpecsOwn : Prop :=
  ∀ (s : State) (r : Refusal), s.timerInv = true → step s = .refused r →
    (r = .notATransactionWord ∧ ∃ word rest, s.inputs = .bus word :: rest ∧ 0x2000 ≤ word) ∨
    (r = .secondInitialize ∧ s.initialised = true ∧ ∃ freq rest, s.inputs = .hostInitialize freq :: rest) ∨
    (r = .zeroDuration ∧ ∃ freq rest, s.inputs = .hostInitialize freq :: rest ∧ freq < 212766) ∨
    (r = .blankingReadBeforeInitialize ∧ s.initialised = false ∧ ∃ rest, s.inputs = .isBlanking :: rest) ∨
    (r = .expiryNotDue ∧ s.expiryDue = false ∧ ∃ rest, s.inputs = .expiry :: rest)
end

