-- ==== Sys2Proof/Laws/Encoding.lean ====
section
/-! SUPPORT. The fields of the canonical word (R61, R62). -/

namespace Sys2Proof

/-- `0x1000 + port * 0x100 + value` for a write, `port * 0x100` for a read whose low byte is 0 (R61, R62). -/
theorem toNat_wordOfFields (w : Bool) (p : Port) (v : Byte) :
    (wordOfFields w p v).toNat = w.toNat * 0x1000 + p.toNat * 0x100 + v.toNat := by
  have hp := p.isLt
  have hv := v.isLt
  have h : wordOfFields w p v = BitVec.ofNat 13 (w.toNat * 0x1000 + p.toNat * 0x100 + v.toNat) := by
    apply BitVec.eq_of_toNat_eq
    show (BitVec.ofBool w ++ p ++ v).toNat = _
    rw [BitVec.toNat_append, BitVec.toNat_append, BitVec.toNat_ofNat]
    rw [← Nat.shiftLeft_add_eq_or_of_lt hp, ← Nat.shiftLeft_add_eq_or_of_lt hv]
    cases w <;> simp [Nat.shiftLeft_eq] <;> omega
  rw [h, BitVec.toNat_ofNat]
  cases w <;> simp <;> omega

/-- Bit 12 is the direction. -/
theorem getLsbD_wordOfFields (w : Bool) (p : Port) (v : Byte) : (wordOfFields w p v).getLsbD 12 = w := by
  have hp := p.isLt
  have hv := v.isLt
  rw [BitVec.getLsbD, toNat_wordOfFields, Nat.testBit_eq_decide_div_mod_eq]
  cases w <;> simp <;> omega

/-- Bits 11:8 are the port. -/
theorem port_wordOfFields (w : Bool) (p : Port) (v : Byte) : (wordOfFields w p v).extractLsb' 8 4 = p := by
  have hp := p.isLt
  have hv := v.isLt
  apply BitVec.eq_of_toNat_eq
  rw [BitVec.extractLsb'_toNat, toNat_wordOfFields, Nat.shiftRight_eq_div_pow]
  cases w <;> simp <;> omega

/-- Bits 7:0 are the value. -/
theorem value_wordOfFields (w : Bool) (p : Port) (v : Byte) : valueField (wordOfFields w p v) = v := by
  have hv := v.isLt
  apply BitVec.eq_of_toNat_eq
  rw [valueField, BitVec.extractLsb'_toNat, toNat_wordOfFields]
  cases w <;> simp <;> omega

end Sys2Proof
end

