-- ==== Sys2Proof/Laws/State.lean ====
section
/-! SUPPORT. One lemma for each field of the state after each named update. -/

namespace Sys2Proof.Machine

variable (s : State)

@[simp] theorem State.setCell_cells (i : Fin 16) (v : Byte) : (s.setCell i v).cells = s.cells.set i v := rfl
@[simp] theorem State.setCell_phase (i : Fin 16) (v : Byte) : (s.setCell i v).phase = s.phase := rfl
@[simp] theorem State.setCell_blankTicks (i : Fin 16) (v : Byte) : (s.setCell i v).blankTicks = s.blankTicks := rfl
@[simp] theorem State.setCell_nonblankTicks (i : Fin 16) (v : Byte) : (s.setCell i v).nonblankTicks = s.nonblankTicks := rfl
@[simp] theorem State.setCell_armed (i : Fin 16) (v : Byte) : (s.setCell i v).armed = s.armed := rfl
@[simp] theorem State.setCell_initialised (i : Fin 16) (v : Byte) : (s.setCell i v).initialised = s.initialised := rfl
@[simp] theorem State.setCell_now (i : Fin 16) (v : Byte) : (s.setCell i v).now = s.now := rfl
@[simp] theorem State.setCell_dirty (i : Fin 16) (v : Byte) : (s.setCell i v).dirty = s.dirty := rfl
@[simp] theorem State.setCell_inputs (i : Fin 16) (v : Byte) : (s.setCell i v).inputs = s.inputs := rfl
@[simp] theorem State.setCell_answers (i : Fin 16) (v : Byte) : (s.setCell i v).answers = s.answers := rfl

@[simp] theorem State.clearCells_cells : s.clearCells.cells = Vector.replicate 16 0#8 := rfl
@[simp] theorem State.clearCells_phase : s.clearCells.phase = s.phase := rfl
@[simp] theorem State.clearCells_blankTicks : s.clearCells.blankTicks = s.blankTicks := rfl
@[simp] theorem State.clearCells_nonblankTicks : s.clearCells.nonblankTicks = s.nonblankTicks := rfl
@[simp] theorem State.clearCells_armed : s.clearCells.armed = s.armed := rfl
@[simp] theorem State.clearCells_initialised : s.clearCells.initialised = s.initialised := rfl
@[simp] theorem State.clearCells_now : s.clearCells.now = s.now := rfl
@[simp] theorem State.clearCells_dirty : s.clearCells.dirty = s.dirty := rfl
@[simp] theorem State.clearCells_inputs : s.clearCells.inputs = s.inputs := rfl
@[simp] theorem State.clearCells_answers : s.clearCells.answers = s.answers := rfl

@[simp] theorem State.markDirty_cells : s.markDirty.cells = s.cells := rfl
@[simp] theorem State.markDirty_phase : s.markDirty.phase = s.phase := rfl
@[simp] theorem State.markDirty_blankTicks : s.markDirty.blankTicks = s.blankTicks := rfl
@[simp] theorem State.markDirty_nonblankTicks : s.markDirty.nonblankTicks = s.nonblankTicks := rfl
@[simp] theorem State.markDirty_armed : s.markDirty.armed = s.armed := rfl
@[simp] theorem State.markDirty_initialised : s.markDirty.initialised = s.initialised := rfl
@[simp] theorem State.markDirty_now : s.markDirty.now = s.now := rfl
@[simp] theorem State.markDirty_dirty : s.markDirty.dirty = s.dirty + 1 := rfl
@[simp] theorem State.markDirty_inputs : s.markDirty.inputs = s.inputs := rfl
@[simp] theorem State.markDirty_answers : s.markDirty.answers = s.answers := rfl

@[simp] theorem State.answer_cells (a : Answer) : (s.answer a).cells = s.cells := rfl
@[simp] theorem State.answer_phase (a : Answer) : (s.answer a).phase = s.phase := rfl
@[simp] theorem State.answer_blankTicks (a : Answer) : (s.answer a).blankTicks = s.blankTicks := rfl
@[simp] theorem State.answer_nonblankTicks (a : Answer) : (s.answer a).nonblankTicks = s.nonblankTicks := rfl
@[simp] theorem State.answer_armed (a : Answer) : (s.answer a).armed = s.armed := rfl
@[simp] theorem State.answer_initialised (a : Answer) : (s.answer a).initialised = s.initialised := rfl
@[simp] theorem State.answer_now (a : Answer) : (s.answer a).now = s.now := rfl
@[simp] theorem State.answer_dirty (a : Answer) : (s.answer a).dirty = s.dirty := rfl
@[simp] theorem State.answer_inputs (a : Answer) : (s.answer a).inputs = s.inputs := rfl
@[simp] theorem State.answer_answers (a : Answer) : (s.answer a).answers = a :: s.answers := rfl

@[simp] theorem State.scrollUp_cells : s.scrollUp.cells = s.cells.set scrollOffsetCell (BitVec.ofNat 8 (rowAfter (s.cell scrollOffsetCell))) := rfl
@[simp] theorem State.scrollUp_phase : s.scrollUp.phase = s.phase := rfl
@[simp] theorem State.scrollUp_blankTicks : s.scrollUp.blankTicks = s.blankTicks := rfl
@[simp] theorem State.scrollUp_nonblankTicks : s.scrollUp.nonblankTicks = s.nonblankTicks := rfl
@[simp] theorem State.scrollUp_armed : s.scrollUp.armed = s.armed := rfl
@[simp] theorem State.scrollUp_initialised : s.scrollUp.initialised = s.initialised := rfl
@[simp] theorem State.scrollUp_now : s.scrollUp.now = s.now := rfl
@[simp] theorem State.scrollUp_dirty : s.scrollUp.dirty = s.dirty := rfl
@[simp] theorem State.scrollUp_inputs : s.scrollUp.inputs = s.inputs := rfl
@[simp] theorem State.scrollUp_answers : s.scrollUp.answers = s.answers := rfl

@[simp] theorem State.pushInput_cells (e : Input) : (s.pushInput e).cells = s.cells := rfl
@[simp] theorem State.pushInput_phase (e : Input) : (s.pushInput e).phase = s.phase := rfl
@[simp] theorem State.pushInput_blankTicks (e : Input) : (s.pushInput e).blankTicks = s.blankTicks := rfl
@[simp] theorem State.pushInput_nonblankTicks (e : Input) : (s.pushInput e).nonblankTicks = s.nonblankTicks := rfl
@[simp] theorem State.pushInput_armed (e : Input) : (s.pushInput e).armed = s.armed := rfl
@[simp] theorem State.pushInput_initialised (e : Input) : (s.pushInput e).initialised = s.initialised := rfl
@[simp] theorem State.pushInput_now (e : Input) : (s.pushInput e).now = s.now := rfl
@[simp] theorem State.pushInput_dirty (e : Input) : (s.pushInput e).dirty = s.dirty := rfl
@[simp] theorem State.pushInput_inputs (e : Input) : (s.pushInput e).inputs = e :: s.inputs := rfl
@[simp] theorem State.pushInput_answers (e : Input) : (s.pushInput e).answers = s.answers := rfl

@[simp] theorem State.arm_cells (d : Nat) : (s.arm d).cells = s.cells := rfl
@[simp] theorem State.arm_phase (d : Nat) : (s.arm d).phase = s.phase := rfl
@[simp] theorem State.arm_blankTicks (d : Nat) : (s.arm d).blankTicks = s.blankTicks := rfl
@[simp] theorem State.arm_nonblankTicks (d : Nat) : (s.arm d).nonblankTicks = s.nonblankTicks := rfl
@[simp] theorem State.arm_armed (d : Nat) : (s.arm d).armed = some (s.now + d) := rfl
@[simp] theorem State.arm_initialised (d : Nat) : (s.arm d).initialised = s.initialised := rfl
@[simp] theorem State.arm_now (d : Nat) : (s.arm d).now = s.now := rfl
@[simp] theorem State.arm_dirty (d : Nat) : (s.arm d).dirty = s.dirty := rfl
@[simp] theorem State.arm_inputs (d : Nat) : (s.arm d).inputs = s.inputs := rfl
@[simp] theorem State.arm_answers (d : Nat) : (s.arm d).answers = s.answers := rfl

@[simp] theorem State.passTime_cells (n : Nat) : (s.passTime n).cells = s.cells := rfl
@[simp] theorem State.passTime_phase (n : Nat) : (s.passTime n).phase = s.phase := rfl
@[simp] theorem State.passTime_blankTicks (n : Nat) : (s.passTime n).blankTicks = s.blankTicks := rfl
@[simp] theorem State.passTime_nonblankTicks (n : Nat) : (s.passTime n).nonblankTicks = s.nonblankTicks := rfl
@[simp] theorem State.passTime_armed (n : Nat) : (s.passTime n).armed = s.armed := rfl
@[simp] theorem State.passTime_initialised (n : Nat) : (s.passTime n).initialised = s.initialised := rfl
@[simp] theorem State.passTime_now (n : Nat) : (s.passTime n).now = s.now + n := rfl
@[simp] theorem State.passTime_dirty (n : Nat) : (s.passTime n).dirty = s.dirty := rfl
@[simp] theorem State.passTime_inputs (n : Nat) : (s.passTime n).inputs = s.inputs := rfl
@[simp] theorem State.passTime_answers (n : Nat) : (s.passTime n).answers = s.answers := rfl

@[simp] theorem State.expire_cells : s.expire.cells = s.cells := rfl
@[simp] theorem State.expire_phase : s.expire.phase = s.phase.toggle := rfl
@[simp] theorem State.expire_blankTicks : s.expire.blankTicks = s.blankTicks := rfl
@[simp] theorem State.expire_nonblankTicks : s.expire.nonblankTicks = s.nonblankTicks := rfl
@[simp] theorem State.expire_armed : s.expire.armed = some (s.now + s.ticksOf s.phase.toggle) := rfl
@[simp] theorem State.expire_initialised : s.expire.initialised = s.initialised := rfl
@[simp] theorem State.expire_now : s.expire.now = s.now := rfl
@[simp] theorem State.expire_dirty : s.expire.dirty = s.dirty := rfl
@[simp] theorem State.expire_inputs : s.expire.inputs = s.inputs := rfl
@[simp] theorem State.expire_answers : s.expire.answers = s.answers := rfl

@[simp] theorem State.startBlanking_cells (freq : Nat) : (s.startBlanking freq).cells = s.cells := rfl
@[simp] theorem State.startBlanking_phase (freq : Nat) : (s.startBlanking freq).phase = .nonblank := rfl
@[simp] theorem State.startBlanking_blankTicks (freq : Nat) : (s.startBlanking freq).blankTicks = blankTicksOf freq := rfl
@[simp] theorem State.startBlanking_nonblankTicks (freq : Nat) : (s.startBlanking freq).nonblankTicks = nonblankTicksOf freq := rfl
@[simp] theorem State.startBlanking_armed (freq : Nat) : (s.startBlanking freq).armed = some (s.now + nonblankTicksOf freq) := rfl
@[simp] theorem State.startBlanking_initialised (freq : Nat) : (s.startBlanking freq).initialised = true := rfl
@[simp] theorem State.startBlanking_now (freq : Nat) : (s.startBlanking freq).now = s.now := rfl
@[simp] theorem State.startBlanking_dirty (freq : Nat) : (s.startBlanking freq).dirty = s.dirty := rfl
@[simp] theorem State.startBlanking_inputs (freq : Nat) : (s.startBlanking freq).inputs = s.inputs := rfl
@[simp] theorem State.startBlanking_answers (freq : Nat) : (s.startBlanking freq).answers = s.answers := rfl

/-! A cell after each update that can change one. -/

@[simp] theorem State.cell_setCell (i j : Fin 16) (v : Byte) :
    (s.setCell i v).cell j = if i = j then v else s.cell j := by
  simp [State.cell, State.setCell, Vector.getElem_set, Fin.ext_iff]

@[simp] theorem State.cell_clearCells (i : Fin 16) : s.clearCells.cell i = 0#8 := by
  simp [State.cell, State.clearCells]

@[simp] theorem State.cell_markDirty (i : Fin 16) : s.markDirty.cell i = s.cell i := rfl

@[simp] theorem State.cell_answer (a : Answer) (i : Fin 16) : (s.answer a).cell i = s.cell i := rfl

@[simp] theorem State.cell_pushInput (e : Input) (i : Fin 16) : (s.pushInput e).cell i = s.cell i := rfl

@[simp] theorem State.cell_passTime (n : Nat) (i : Fin 16) : (s.passTime n).cell i = s.cell i := rfl

@[simp] theorem State.cell_expire (i : Fin 16) : s.expire.cell i = s.cell i := rfl

@[simp] theorem State.cell_startBlanking (freq : Nat) (i : Fin 16) : (s.startBlanking freq).cell i = s.cell i := rfl

theorem State.cell_scrollUp (j : Fin 16) :
    s.scrollUp.cell j =
      if scrollOffsetCell = j then BitVec.ofNat 8 (rowAfter (s.cell scrollOffsetCell)) else s.cell j :=
  State.cell_setCell s ..

theorem rowAfter_lt (offset : Byte) : rowAfter offset < 32 := Nat.mod_lt _ (by decide)

@[simp] theorem toNat_ofNat_rowAfter (offset : Byte) : (BitVec.ofNat 8 (rowAfter offset)).toNat = rowAfter offset := by
  have := rowAfter_lt offset
  simp only [BitVec.toNat_ofNat]
  omega

/-- Two cells are written in either order. -/
theorem State.setCell_comm (i j : Fin 16) (v w : Byte) (h : i ≠ j) :
    (s.setCell i v).setCell j w = (s.setCell j w).setCell i v := by
  have : (i : Nat) ≠ j := fun e => h (Fin.ext e)
  simp [State.setCell, Vector.set_comm _ _ this]

/-- Two states with the same cells read by read are the same bank. -/
theorem State.cells_eq_of_cell {s t : State} (h : ∀ i, s.cell i = t.cell i) : s.cells = t.cells :=
  Vector.ext fun i hi => h ⟨i, hi⟩

end Sys2Proof.Machine
end

