-- ==== Sys2Proof/Laws/Ops.lean ====
section
/-! SUPPORT. What each shared operation can do, once. -/

namespace Sys2Proof.Machine

/-! ### The flag -/

@[simp] theorem Phase.toggle_toggle (p : Phase) : p.toggle.toggle = p := by cases p <;> rfl

@[simp] theorem Phase.toggle_ne (p : Phase) : p.toggle ≠ p := by cases p <;> decide

@[simp] theorem Phase.isBlank_toggle (p : Phase) : p.toggle.isBlank = !p.isBlank := by cases p <;> rfl

theorem Phase.isBlank_eq_decide (p : Phase) : p.isBlank = decide (p = .blank) := by cases p <;> rfl

/-! ### Bus operations -/

theorem busWrite_next {effect : State → State} {s t : State} (h : busWrite effect s = .next t) :
    t = (effect s).markDirty := by
  simpa [busWrite] using h.symm

theorem busRead_next {port : Port} {value : Byte} {s t : State} (h : busRead port value s = .next t) :
    t = s.answer (.read port value) := by
  simpa [busRead] using h.symm

/-- Everything a transaction can do: a write marks the frame dirty after storing to at most one cell, a read answers
one byte. -/
theorem exec_cases (i : Instr) (s : State) :
    (i.isWrite = true ∧ destCells i = [] ∧ exec i s = .next s.markDirty) ∨
    (∃ (c : Fin 16) (v : Byte), i.isWrite = true ∧ destCells i = [c] ∧ (c = 0x6 ∨ c = 0x8 ∧ v.toNat ≤ 0x3F ∨ c = 0x9) ∧
      exec i s = .next (s.setCell c v).markDirty) ∨
    (∃ b : Byte, i.isWrite = false ∧ destCells i = [] ∧ exec i s = .next (s.answer (.read i.port b))) := by
  have low (v : Byte) : (lowSixBits v).toNat ≤ 0x3F := by
    simp only [lowSixBits, BitVec.toNat_and]
    exact Nat.and_le_right
  cases i
  case ldlastrow v => exact .inr (.inl ⟨0x6, v, rfl, rfl, .inl rfl, rfl⟩)
  case scrollup v => exact .inr (.inl ⟨0x6, _, rfl, rfl, .inl rfl, rfl⟩)
  case ldcurx v => exact .inr (.inl ⟨0x9, v, rfl, rfl, .inr (.inr rfl), rfl⟩)
  case ldcury v => exact .inr (.inl ⟨0x8, lowSixBits v, rfl, rfl, .inr (.inl ⟨rfl, low v⟩), rfl⟩)
  all_goals first
    | exact .inl ⟨rfl, rfl, rfl⟩
    | exact .inr (.inr ⟨_, rfl, rfl, rfl⟩)

/-! ### The timer -/

theorem State.expiryDue_iff {s : State} : s.expiryDue = true ↔ s.initialised = true ∧ s.armed = some s.now := by
  unfold State.expiryDue State.deadline
  cases s.initialised <;> simp

theorem State.deadline_eq_some {s : State} {d : Nat} :
    s.deadline = some d ↔ s.initialised = true ∧ s.armed = some d := by
  unfold State.deadline
  cases s.initialised <;> simp

theorem deliverExpiry_of_due {s : State} (hi : s.initialised = true) (ha : s.armed = some s.now) :
    deliverExpiry s = .next s.expire := by
  rw [deliverExpiry, if_pos (State.expiryDue_iff.2 ⟨hi, ha⟩)]

theorem deliverExpiry_next {s t : State} (h : deliverExpiry s = .next t) : s.expiryDue = true ∧ t = s.expire := by
  unfold deliverExpiry at h
  split at h
  · exact ⟨‹_›, by simpa using h.symm⟩
  · cases h

/-- Everything letting time pass can do. -/
theorem advanceTime_cases {n : Nat} {s t : State} (h : advanceTime n s = .next t) :
    (t = s.passTime n ∧ ∀ d, s.deadline = some d → n = 0 ∨ s.now + n ≤ d) ∨
    (0 < n ∧ s.expiryDue = true ∧ t = s.expire.pushInput (.advance n)) ∨
    (∃ d, s.deadline = some d ∧ s.now < d ∧ d < s.now + n ∧
      t = (s.passTime (d - s.now)).pushInput (.advance (s.now + n - d))) := by
  unfold advanceTime at h
  split at h
  · cases h
    exact .inl ⟨rfl, fun _ _ => .inl rfl⟩
  · cases h
    rename_i hd
    exact .inl ⟨rfl, fun d h => by simp [hd] at h⟩
  · rename_i n d hd
    split at h
    · cases h
    · split at h
      · cases h
        subst d
        exact .inr (.inl ⟨by omega, by simp [State.expiryDue, hd], rfl⟩)
      · split at h
        · cases h
          exact .inl ⟨rfl, fun d' h' => .inr (by simp_all)⟩
        · cases h
          exact .inr (.inr ⟨d, hd, by omega, by omega, rfl⟩)

/-- Everything the block can do on its own. -/
theorem idle_cases {s t : State} (h : idle s = .next t) :
    (s.deadline = none ∧ t = s) ∨ (s.expiryDue = true ∧ t = s.expire) ∨
    (∃ d, s.deadline = some d ∧ s.now < d ∧ t = s.passTime (d - s.now)) := by
  unfold idle at h
  split at h
  · cases h
    exact .inl ⟨‹_›, rfl⟩
  · rename_i d hd
    split at h
    · cases h
    · split at h
      · cases h
        subst d
        exact .inr (.inl ⟨by simp [State.expiryDue, hd], rfl⟩)
      · cases h
        exact .inr (.inr ⟨d, hd, by omega, rfl⟩)

/-- `initialize` answers next in its contract alone, with the state R121 writes. -/
theorem hostInitialize_next {freq : Nat} {s t : State} (h : hostInitialize freq s = .next t) :
    s.initialised = false ∧ 1 ≤ blankTicksOf freq ∧ t = s.startBlanking freq := by
  unfold hostInitialize at h
  split at h
  · cases h
  · split at h
    · cases h
    · cases h
      exact ⟨by simp_all, by omega, rfl⟩

theorem hostInitialize_of_contract {freq : Nat} {s : State} (hi : s.initialised = false) (hf : 212766 ≤ freq) :
    hostInitialize freq s = .next (s.startBlanking freq) := by
  have : blankTicksOf freq ≠ 0 := by
    unfold blankTicksOf Config.blankTenths Config.tenthsPerSecond
    omega
  simp [hostInitialize, hi, this]

theorem readIsBlanking_of_initialised {s : State} (hi : s.initialised = true) :
    readIsBlanking s = .next (s.answer (.isBlanking s.phase.isBlank)) := by
  simp [readIsBlanking, State.isBlanking, hi]

theorem readIsBlanking_next {s t : State} (h : readIsBlanking s = .next t) :
    s.initialised = true ∧ t = s.answer (.isBlanking s.phase.isBlank) := by
  unfold readIsBlanking State.isBlanking at h
  cases hi : s.initialised <;> simp [hi] at h
  exact ⟨rfl, h.symm⟩

/-! ### The bank's invariant under each operation -/

theorem State.bankInv_iff {s : State} :
    s.bankInv = true ↔
      (∀ i : Fin 16, i ≠ 0x6 → i ≠ 0x8 → i ≠ 0x9 → s.cell i = 0#8) ∧ (s.cell 0x8).toNat ≤ 0x3F := by
  simp [State.bankInv]

theorem State.bankInv_setCell {s : State} {c : Fin 16} {v : Byte} (h : s.bankInv = true)
    (hc : c = 0x6 ∨ c = 0x8 ∧ v.toNat ≤ 0x3F ∨ c = 0x9) : (s.setCell c v).bankInv = true := by
  rw [State.bankInv_iff] at *
  obtain ⟨unused, cursorY⟩ := h
  constructor
  · intro i h6 h8 h9
    rw [State.cell_setCell, if_neg (by rintro rfl; rcases hc with e | ⟨e, -⟩ | e <;> contradiction)]
    exact unused i h6 h8 h9
  · rw [State.cell_setCell]
    split
    · rcases hc with rfl | ⟨-, hv⟩ | rfl
      · contradiction
      · exact hv
      · contradiction
    · exact cursorY

theorem State.bankInv_clearCells (s : State) : s.clearCells.bankInv = true := by
  rw [State.bankInv_iff]
  exact ⟨fun i _ _ _ => s.cell_clearCells i, by rw [s.cell_clearCells]; decide⟩

/-- The bank's invariant looks at the cells alone. -/
theorem State.bankInv_congr {s t : State} (h : t.cells = s.cells) : t.bankInv = s.bankInv := by
  unfold State.bankInv State.cell
  rw [h]

/-- The timer's invariant, spelled out. -/
theorem State.timerInv_iff {s : State} :
    s.timerInv = true ↔
      (s.initialised = false ∧ s.armed = none) ∨
      (s.initialised = true ∧ ∃ d, s.armed = some d ∧ s.now ≤ d ∧ d - s.now ≤ s.ticksOf s.phase ∧
        1 ≤ s.blankTicks ∧ 12 ≤ s.nonblankTicks) := by
  unfold State.timerInv
  cases s.initialised <;> cases s.armed <;> simp [and_assoc]

end Sys2Proof.Machine
end

