-- ==== Sys2Proof/Laws/PerInstr.lean ====
section
/-! SUPPORT. For every instruction: it keeps the contract, and the three fields of its word are its own (R61, R62, R69). -/

namespace Sys2Proof.Laws.EncodedFields

/-- The instruction keeps the contract, and bit 12, bits 11:8 and bits 7:0 of its word are its direction, its port and
its byte. -/
def Statement (i : Instr) : Prop :=
  i.wf = true ∧ (encode i).getLsbD 12 = i.isWrite ∧ (encode i).extractLsb' 8 4 = i.port ∧ valueField (encode i) = i.value

theorem valueWf_byte (v : Byte) : valueWf v.toNat = true := decide_eq_true v.isLt

theorem of_wf {i : Instr} (h : i.wf = true) : Statement i :=
  ⟨h, getLsbD_wordOfFields .., port_wordOfFields .., value_wordOfFields ..⟩

theorem ldctl0 (value : Byte) : Statement (.ldctl0 value) := of_wf (valueWf_byte value)

theorem ldctl1 (value : Byte) : Statement (.ldctl1 value) := of_wf (valueWf_byte value)

theorem ldctl2 (value : Byte) : Statement (.ldctl2 value) := of_wf (valueWf_byte value)

theorem ldctl3 (value : Byte) : Statement (.ldctl3 value) := of_wf (valueWf_byte value)

theorem ldctl4 (value : Byte) : Statement (.ldctl4 value) := of_wf (valueWf_byte value)

theorem ldctl5 (value : Byte) : Statement (.ldctl5 value) := of_wf (valueWf_byte value)

theorem ldlastrow (value : Byte) : Statement (.ldlastrow value) := of_wf (valueWf_byte value)

theorem procload (value : Byte) : Statement (.procload value) := of_wf (valueWf_byte value)

theorem wnull8 (value : Byte) : Statement (.wnull8 value) := of_wf (valueWf_byte value)

theorem wnull9 (value : Byte) : Statement (.wnull9 value) := of_wf (valueWf_byte value)

theorem rstcnt (value : Byte) : Statement (.rstcnt value) := of_wf (valueWf_byte value)

theorem scrollup (value : Byte) : Statement (.scrollup value) := of_wf (valueWf_byte value)

theorem ldcurx (value : Byte) : Statement (.ldcurx value) := of_wf (valueWf_byte value)

theorem ldcury (value : Byte) : Statement (.ldcury value) := of_wf (valueWf_byte value)

theorem starttim (value : Byte) : Statement (.starttim value) := of_wf (valueWf_byte value)

theorem selfload (value : Byte) : Statement (.selfload value) := of_wf (valueWf_byte value)

theorem rnull0 : Statement .rnull0 := of_wf rfl

theorem rnull1 : Statement .rnull1 := of_wf rfl

theorem rnull2 : Statement .rnull2 := of_wf rfl

theorem rnull3 : Statement .rnull3 := of_wf rfl

theorem rnull4 : Statement .rnull4 := of_wf rfl

theorem rnull5 : Statement .rnull5 := of_wf rfl

theorem rnull6 : Statement .rnull6 := of_wf rfl

theorem rnull7 : Statement .rnull7 := of_wf rfl

theorem rdcury : Statement .rdcury := of_wf rfl

theorem rdcurx : Statement .rdcurx := of_wf rfl

theorem rnullA : Statement .rnullA := of_wf rfl

theorem rnullB : Statement .rnullB := of_wf rfl

theorem rnullC : Statement .rnullC := of_wf rfl

theorem rnullD : Statement .rnullD := of_wf rfl

theorem rnullE : Statement .rnullE := of_wf rfl

theorem rnullF : Statement .rnullF := of_wf rfl

end Sys2Proof.Laws.EncodedFields
end

