-- ==== Sys2Proof/Laws/Step.lean ====
section
/-! SUPPORT. What a step can do: perform the next operation, or let the timer go on by itself. -/

namespace Sys2Proof.Machine

theorem step_of_input {s : State} {e : Input} {rest : List Input} (h : s.inputs = e :: rest) :
    step s = perform e { s with inputs := rest } := by
  unfold step takeInput
  rw [h]

theorem step_of_no_input {s : State} (h : s.inputs = []) : step s = idle s := by
  unfold step takeInput
  rw [h]

@[simp] theorem step_cons (s : State) (e : Input) (rest : List Input) :
    step { s with inputs := e :: rest } = perform e { s with inputs := rest } := rfl

theorem nextInstr_of_decode {s : State} {word : Nat} {rest : List Input} {i : Instr} (h : s.inputs = .bus word :: rest)
    (hd : decode word = .ok i) : s.nextInstr = some i := by
  unfold State.nextInstr
  rw [h]
  simp [hd, Except.toOption]

theorem nextIsWrite_of_other {s : State} {e : Input} {rest : List Input} (h : s.inputs = e :: rest)
    (he : ∀ word, e ≠ .bus word) : s.nextIsWrite = false := by
  unfold State.nextIsWrite State.nextInstr
  rw [h]
  cases e <;> first | rfl | exact absurd rfl (he _)

theorem runBusWord_of_decode {word : Nat} {i : Instr} (h : decode word = .ok i) (s : State) :
    runBusWord word s = exec i s := by
  simp [runBusWord, h]

theorem runBusWord_next {word : Nat} {s t : State} (h : runBusWord word s = .next t) :
    ∃ i, decode word = .ok i ∧ exec i s = .next t := by
  unfold runBusWord at h
  split at h
  · exact ⟨_, ‹_›, h⟩
  · cases h

/-- Everything a step can do, by what stands first among the inputs. -/
theorem step_cases {s t : State} (h : step s = .next t) :
    (s.inputs = [] ∧ idle s = .next t) ∨
    (∃ e rest, s.inputs = e :: rest ∧ perform e { s with inputs := rest } = .next t) := by
  cases hin : s.inputs with
  | nil => exact .inl ⟨rfl, step_of_no_input hin ▸ h⟩
  | cons e rest => exact .inr ⟨e, rest, rfl, step_of_input hin ▸ h⟩

/-- Everything a step can make of a state, with what stands first among the inputs. -/
inductive StepEffect (s t : State) : Prop
  | notify (i : Instr) (word : Nat) (rest : List Input) (input : s.inputs = .bus word :: rest)
      (decoded : decode word = .ok i) (write : i.isWrite = true) (dest : destCells i = [])
      (eq : t = ({ s with inputs := rest } : State).markDirty)
  | store (i : Instr) (word : Nat) (rest : List Input) (c : Fin 16) (v : Byte) (input : s.inputs = .bus word :: rest)
      (decoded : decode word = .ok i) (write : i.isWrite = true) (dest : destCells i = [c])
      (cell : c = 0x6 ∨ c = 0x8 ∧ v.toNat ≤ 0x3F ∨ c = 0x9)
      (eq : t = (({ s with inputs := rest } : State).setCell c v).markDirty)
  | reply (e : Input) (rest : List Input) (a : Answer) (input : s.inputs = e :: rest)
      (kind : (∃ word, e = .bus word) ∨ e = .cursorX ∨ e = .cursorY ∨ e = .firstDisplayRow ∨ e = .isBlanking)
      (noWrite : s.nextIsWrite = false) (eq : t = ({ s with inputs := rest } : State).answer a)
  | clear (rest : List Input) (input : s.inputs = .hostReset :: rest)
      (eq : t = ({ s with inputs := rest } : State).clearCells)
  | start (freq : Nat) (rest : List Input) (input : s.inputs = .hostInitialize freq :: rest)
      (before : s.initialised = false) (ticks : 1 ≤ blankTicksOf freq)
      (eq : t = ({ s with inputs := rest } : State).startBlanking freq)
  | expire (rest : List Input)
      (input : s.inputs = [] ∨ (∃ r, s.inputs = .expiry :: r) ∨ ∃ n r, s.inputs = .advance n :: r)
      (due : s.expiryDue = true) (eq : t = { s.expire with inputs := rest })
  | pass (n : Nat) (rest : List Input) (input : s.inputs = [] ∨ ∃ n r, s.inputs = .advance n :: r)
      (before : ∀ d, s.deadline = some d → n = 0 ∨ s.now + n ≤ d) (eq : t = { s.passTime n with inputs := rest })

/-- The inversion of the step: whatever it makes of a state is one of these. -/
theorem step_effect {s t : State} (h : step s = .next t) : StepEffect s t := by
  rcases step_cases h with ⟨hin, hs⟩ | ⟨e, rest, hin, hs⟩
  · rcases idle_cases hs with ⟨-, rfl⟩ | ⟨due, rfl⟩ | ⟨d, hd, hlt, rfl⟩
    · exact .pass 0 _ (.inl hin) (fun _ _ => .inl rfl) rfl
    · exact .expire _ (.inl hin) due rfl
    · refine .pass (d - s.now) _ (.inl hin) (fun d' hd' => .inr ?_) rfl
      obtain rfl : d = d' := Option.some.inj (hd.symm.trans hd')
      omega
  · cases e with
    | bus word =>
      obtain ⟨i, hd, he⟩ := runBusWord_next hs
      rcases exec_cases i { s with inputs := rest } with
        ⟨hw, hc, h'⟩ | ⟨c, v, hw, hc, hcell, h'⟩ | ⟨b, hw, hc, h'⟩ <;> cases h'.symm.trans he
      · exact .notify i word rest hin hd hw hc rfl
      · exact .store i word rest c v hin hd hw hc hcell rfl
      · refine .reply _ rest _ hin (.inl ⟨_, rfl⟩) ?_ rfl
        simp [State.nextIsWrite, State.nextInstr, hin, hd, Except.toOption, hw]
    | hostReset => cases hs; exact .clear rest hin rfl
    | hostInitialize freq =>
      obtain ⟨hi, hf, rfl⟩ := hostInitialize_next hs
      exact .start freq rest hin hi hf rfl
    | cursorX => cases hs; exact .reply _ rest _ hin (by simp) (nextIsWrite_of_other hin (by simp)) rfl
    | cursorY => cases hs; exact .reply _ rest _ hin (by simp) (nextIsWrite_of_other hin (by simp)) rfl
    | firstDisplayRow => cases hs; exact .reply _ rest _ hin (by simp) (nextIsWrite_of_other hin (by simp)) rfl
    | isBlanking =>
      obtain ⟨-, rfl⟩ := readIsBlanking_next hs
      exact .reply _ rest _ hin (by simp) (nextIsWrite_of_other hin (by simp)) rfl
    | expiry =>
      obtain ⟨due, rfl⟩ := deliverExpiry_next hs
      exact .expire rest (.inr (.inl ⟨_, hin⟩)) due rfl
    | advance n =>
      rcases advanceTime_cases hs with ⟨rfl, hd⟩ | ⟨-, due, rfl⟩ | ⟨d, hd, hlt, -, rfl⟩
      · exact .pass n rest (.inr ⟨_, _, hin⟩) hd rfl
      · exact .expire _ (.inr (.inr ⟨_, _, hin⟩)) due rfl
      · refine .pass (d - s.now) _ (.inr ⟨_, _, hin⟩) (fun d' hd' => .inr ?_) rfl
        obtain rfl : d = d' := Option.some.inj (hd.symm.trans hd')
        show s.now + (d - s.now) ≤ d
        have : s.now < d := hlt
        omega

theorem run_succ_of_step {s t : State} (h : step s = .next t) (k : Nat) : core.run (k + 1) s = core.run k t := by
  simp [Host.Core.run, core, h]

@[simp] theorem run_zero (s : State) : core.run 0 s = .next s := rfl

theorem run_add {j : Nat} {s t : State} (h : core.run j s = .next t) (k : Nat) :
    core.run (j + k) s = core.run k t := by
  induction j generalizing s with
  | zero => cases h; rw [Nat.zero_add]
  | succ j ih =>
    cases hs : step s with
    | next u =>
      rw [run_succ_of_step hs] at h
      rw [Nat.succ_add, run_succ_of_step hs, ih h]
    | fault r => cases r
    | refused r => simp [Host.Core.run, core, hs] at h

@[simp] theorem answersAfter_nil (s : State) : answersAfter [] s = some s.answers := rfl

/-- Operations are performed one after another: the first, then the others on the state it leaves. -/
theorem answersAfter_cons {e : Input} {ops : List Input} {s t : State}
    (h : perform e { s with inputs := ops } = .next t) (hin : t.inputs = ops) :
    answersAfter (e :: ops) s = answersAfter ops t := by
  have hs : step { s with inputs := e :: ops } = .next t := (step_cons s e ops).trans h
  have ht : ({ t with inputs := ops } : State) = t := by subst hin; rfl
  unfold answersAfter
  rw [List.length_cons, run_succ_of_step hs, ht]

theorem answersAfter_bus {word : Nat} {i : Instr} {ops : List Input} {s t : State} (hd : decode word = .ok i)
    (h : exec i { s with inputs := ops } = .next t) (hin : t.inputs = ops) :
    answersAfter (.bus word :: ops) s = answersAfter ops t :=
  answersAfter_cons ((runBusWord_of_decode hd _).trans h) hin

end Sys2Proof.Machine
end

