-- ==== Sys2Proof/Tests/Slice0.lean ====
section
/-! SUPPORT. The model's own tests. Expected results are from 95_test_vectors.md (the id is named) or from the encoding
rules R61 to R64 by hand. The last part shows, for each statement with hypotheses, a state and operands that meet them. -/

namespace Sys2Proof.Tests

open Sys2Proof.Machine

/-! ### States -/

/-- The reset state with cells 0x6, 0x8 and 0x9 as given. -/
def bank (x6 x8 x9 : Byte) : State := ((State.reset.setCell 0x6 x6).setCell 0x8 x8).setCell 0x9 x9

/-- V-T1: `initialize(1000000)` has run at time 0; NONBLANK, armed for 58. -/
def running : State :=
  { State.reset with blankTicks := 4, nonblankTicks := 58, armed := some 58, initialised := true }

/-- V-T1 at time 58, before the first expiry. -/
def due : State := { running with now := 58 }

/-- V-T1 after the first expiry: BLANK, armed for 62. -/
def blanking : State := { running with now := 58, phase := .blank, armed := some 62 }

/-- V-T1 at time 62, before the second expiry. -/
def dueBack : State := { blanking with now := 62 }

/-! ### Well-formedness: each check refuses something (R69) -/

theorem test_port_15_is_wf : portWf 15 = true := by decide
theorem test_port_16_is_ill_formed : portWf 16 = false := by decide
theorem test_value_255_is_wf : valueWf 255 = true := by decide
theorem test_value_256_is_ill_formed : valueWf 256 = false := by decide
theorem test_word_1FFF_is_wf : wordWf 0x1FFF = true := by decide
theorem test_word_2000_is_ill_formed : wordWf 0x2000 = false := by decide
theorem test_instr_is_wf : (Instr.ldcury 0xFF#8).wf = true := by decide
theorem test_write_call_port_16 : wordOfWriteCall 16 0 = .error .portOutOfRange := by decide
theorem test_write_call_value_256 : wordOfWriteCall 0 256 = .error .valueOutOfRange := by decide
theorem test_read_call_port_16 : wordOfReadCall 16 = .error .portOutOfRange := by decide
theorem test_write_call_R61_example : wordOfWriteCall 0xC 0x28 = .ok 0x1C28 := by decide
theorem test_word_2000_is_no_transaction : decode 0x2000 = .error .notATransactionWord := by decide

/-! ### Decoding: one word for each row, its bits written out from R61 and R62 -/

theorem test_decode_ldctl0 : decode 0b1000001011111 = .ok (.ldctl0 0x5F#8) := by decide
theorem test_decode_ldctl1 : decode 0b1000100000000 = .ok (.ldctl1 0x00#8) := by decide
theorem test_decode_ldctl2 : decode 0b1001011111111 = .ok (.ldctl2 0xFF#8) := by decide
theorem test_decode_ldctl3 : decode 0b1001100011111 = .ok (.ldctl3 0x1F#8) := by decide
theorem test_decode_ldctl4 : decode 0b1010010000000 = .ok (.ldctl4 0x80#8) := by decide
theorem test_decode_ldctl5 : decode 0b1010100111111 = .ok (.ldctl5 0x3F#8) := by decide
theorem test_decode_ldlastrow : decode 0b1011000011110 = .ok (.ldlastrow 0x1E#8) := by decide
theorem test_decode_procload : decode 0b1011100000000 = .ok (.procload 0x00#8) := by decide
theorem test_decode_wnull8 : decode 0b1100000010101 = .ok (.wnull8 0x15#8) := by decide
theorem test_decode_wnull9 : decode 0b1100101000000 = .ok (.wnull9 0x40#8) := by decide
theorem test_decode_rstcnt : decode 0b1101000000000 = .ok (.rstcnt 0x00#8) := by decide
theorem test_decode_scrollup : decode 0b1101101110111 = .ok (.scrollup 0x77#8) := by decide
theorem test_decode_ldcurx : decode 0b1110000101000 = .ok (.ldcurx 0x28#8) := by decide
theorem test_decode_ldcury : decode 0b1110111111111 = .ok (.ldcury 0xFF#8) := by decide
theorem test_decode_starttim : decode 0b1111000000000 = .ok (.starttim 0x00#8) := by decide
theorem test_decode_selfload : decode 0b1111110101010 = .ok (.selfload 0xAA#8) := by decide
theorem test_decode_rnull0 : decode 0b0000000000000 = .ok .rnull0 := by decide
theorem test_decode_rnull1 : decode 0b0000100000000 = .ok .rnull1 := by decide
theorem test_decode_rnull2 : decode 0b0001000000000 = .ok .rnull2 := by decide
theorem test_decode_rnull3 : decode 0b0001100000000 = .ok .rnull3 := by decide
theorem test_decode_rnull4 : decode 0b0010000000000 = .ok .rnull4 := by decide
theorem test_decode_rnull5 : decode 0b0010100000000 = .ok .rnull5 := by decide
theorem test_decode_rnull6 : decode 0b0011000000000 = .ok .rnull6 := by decide
theorem test_decode_rnull7 : decode 0b0011100000000 = .ok .rnull7 := by decide
theorem test_decode_rdcury : decode 0b0100000000000 = .ok .rdcury := by decide
theorem test_decode_rdcurx : decode 0b0100100000000 = .ok .rdcurx := by decide
theorem test_decode_rnullA : decode 0b0101000000000 = .ok .rnullA := by decide
theorem test_decode_rnullB : decode 0b0101100000000 = .ok .rnullB := by decide
theorem test_decode_rnullC : decode 0b0110000000000 = .ok .rnullC := by decide
theorem test_decode_rnullD : decode 0b0110100000000 = .ok .rnullD := by decide
theorem test_decode_rnullE : decode 0b0111000000000 = .ok .rnullE := by decide
theorem test_decode_rnullF : decode 0b0111100000000 = .ok .rnullF := by decide
theorem test_decode_ignores_a_reads_low_byte : decode 0x08FF = .ok .rdcury := by decide    -- V-R17
theorem test_encode_R61_example : encode (.ldcurx 0x28#8) = 0x1C28#13 := by decide
theorem test_encode_read_low_byte_is_0 : encode .rdcury = 0x0800#13 := by decide
theorem test_table_word : decodeTableWord 16 0x1B77 = some (.scrollup 0x77#8) := by decide
theorem test_table_word_above_13_bits : decodeTableWord 16 0x2000 = none := by decide

/-! ### Write ports -/

/-- The cells 0x6, 0x8, 0x9 and the count after one transaction. -/
def after (i : Instr) (s : State) : Option (Byte × Byte × Byte × Nat) :=
  (nextState (exec i s)).map fun t => (t.cell 0x6, t.cell 0x8, t.cell 0x9, t.dirty)

theorem test_ldctl0_only_notifies : after (.ldctl0 0xA5#8) (bank 0x03 0x22 0x11) = some (0x03#8, 0x22#8, 0x11#8, 1) := by decide    -- V-W12
theorem test_ldctl3_only_notifies : after (.ldctl3 0xA5#8) (bank 0x03 0x22 0x11) = some (0x03#8, 0x22#8, 0x11#8, 1) := by decide    -- V-W12
theorem test_wnull8_only_notifies : after (.wnull8 0xA5#8) (bank 0x03 0x22 0x11) = some (0x03#8, 0x22#8, 0x11#8, 1) := by decide    -- V-W12
theorem test_wnull9_only_notifies : after (.wnull9 0xA5#8) (bank 0x03 0x22 0x11) = some (0x03#8, 0x22#8, 0x11#8, 1) := by decide    -- V-W12
theorem test_rstcnt_only_notifies : after (.rstcnt 0xA5#8) (bank 0x03 0x22 0x11) = some (0x03#8, 0x22#8, 0x11#8, 1) := by decide    -- V-W12
theorem test_starttim_only_notifies : after (.starttim 0xA5#8) (bank 0x03 0x22 0x11) = some (0x03#8, 0x22#8, 0x11#8, 1) := by decide    -- V-W12
theorem test_selfload_only_notifies : after (.selfload 0xA5#8) (bank 0x03 0x22 0x11) = some (0x03#8, 0x22#8, 0x11#8, 1) := by decide    -- V-W12
theorem test_ldlastrow_stores_200 : after (.ldlastrow 0xC8#8) (bank 0 0 0) = some (200#8, 0#8, 0#8, 1) := by decide    -- V-L7
theorem test_scrollup_wraps : after (.scrollup 0x77#8) (bank 31 0 0) = some (0#8, 0#8, 0#8, 1) := by decide    -- V-S3
theorem test_scrollup_from_200 : after (.scrollup 0x01#8) (bank 200 0 0) = some (9#8, 0#8, 0#8, 1) := by decide    -- V-S5
theorem test_ldcurx_stores_8_bits : after (.ldcurx 0xFF#8) (bank 0 0 0) = some (0#8, 0#8, 0xFF#8, 1) := by decide    -- V-W3
theorem test_ldcury_masks : after (.ldcury 0xC5#8) (bank 0 0 0) = some (0#8, 0x05#8, 0#8, 1) := by decide    -- V-W9
theorem test_ldcury_is_not_reduced_mod_32 : after (.ldcury 0x25#8) (bank 0 0 0) = some (0#8, 0x25#8, 0#8, 1) := by decide    -- V-W11

/-! ### Read ports (V-R0 to V-RF) -/

/-- What a read answers, with the count and cell 0x6 after it. -/
def reply (i : Instr) (s : State) : Option (List Answer × Nat × Byte) :=
  (nextState (exec i s)).map fun t => (t.answers, t.dirty, t.cell 0x6)

theorem test_rnull0_answer : reply .rnull0 (bank 0x1F 0x17 0x28) = some ([.read 0x0#4 0x00#8], 0, 0x1F#8) := by decide
theorem test_rnull6_answer : reply .rnull6 (bank 0x1F 0x17 0x28) = some ([.read 0x6#4 0x00#8], 0, 0x1F#8) := by decide
theorem test_rdcury_answer : reply .rdcury (bank 0x1F 0x17 0x28) = some ([.read 0x8#4 0x17#8], 0, 0x1F#8) := by decide
theorem test_rdcurx_answer : reply .rdcurx (bank 0x1F 0x17 0x28) = some ([.read 0x9#4 0x28#8], 0, 0x1F#8) := by decide
theorem test_rnullB_answer : reply .rnullB (bank 0x1F 0x17 0x28) = some ([.read 0xB#4 0x00#8], 0, 0x1F#8) := by decide
theorem test_rnullC_answer : reply .rnullC (bank 0x1F 0x17 0x28) = some ([.read 0xC#4 0x00#8], 0, 0x1F#8) := by decide
theorem test_rnullD_answer : reply .rnullD (bank 0x1F 0x17 0x28) = some ([.read 0xD#4 0x00#8], 0, 0x1F#8) := by decide

/-! ### Host operations and the timer -/

/-- What a step makes of a few fields. -/
def timerAfter (s : State) : Option (Phase × Option Nat × Nat × List Input) :=
  (nextState (step s)).map fun t => (t.phase, t.armed, t.now, t.inputs)

theorem test_reset_keeps_the_blanking_state :    -- V-X1
    (nextState (step { blanking with dirty := 9, inputs := [.hostReset] })).map
      (fun t => (t.phase, t.armed, t.dirty, t.firstDisplayRow)) = some (.blank, some 62, 9, 1) := by decide
theorem test_initialize_1000000 :    -- V-I3
    (nextState (step { State.reset with inputs := [.hostInitialize 1000000] })).map
      (fun t => (t.blankTicks, t.nonblankTicks, t.armed, t.phase)) = some (4, 58, some 58, .nonblank) := by decide
theorem test_initialize_212766_is_taken :    -- V-I2
    (nextState (step { State.reset with inputs := [.hostInitialize 212766] })).map
      (fun t => (t.blankTicks, t.nonblankTicks)) = some (1, 12) := by decide
theorem test_initialize_212765_is_refused :    -- V-I1
    step { State.reset with inputs := [.hostInitialize 212765] } = .refused .zeroDuration := rfl
theorem test_second_initialize_is_refused :    -- V-I9
    step { running with inputs := [.hostInitialize 1000000] } = .refused .secondInitialize := rfl
theorem test_blanking_before_initialize_is_refused :    -- V-T4
    step { State.reset with inputs := [.isBlanking] } = .refused .blankingReadBeforeInitialize := rfl
theorem test_first_expiry_arms_the_short_phase :    -- V-T1, V-T3
    timerAfter { due with inputs := [.expiry] } = some (.blank, some 62, 58, []) := by decide
theorem test_second_expiry_arms_the_long_phase :    -- V-T1
    timerAfter { dueBack with inputs := [.expiry] } = some (.nonblank, some 120, 62, []) := by decide
theorem test_time_stops_at_the_deadline :
    timerAfter { running with inputs := [.advance 60] } = some (.nonblank, some 58, 58, [.advance 2]) := by decide
theorem test_due_expiry_runs_first :
    timerAfter { due with inputs := [.advance 2] } = some (.blank, some 62, 58, [.advance 2]) := by decide
theorem test_first_row_of_31_is_0 : (bank 31 0 0).firstDisplayRow = 0 := by decide    -- V-L3
theorem test_first_row_of_255_is_0 : (bank 255 0 0).firstDisplayRow = 0 := by decide    -- V-L9
theorem test_fetched_word_runs :
    (nextState (step (State.reset.withFetchWord 16 0x1C28))).map (fun t => (t.cell 0x9, t.dirty, t.inputs)) =
      some (0x28#8, 1, []) := by decide

/-! ### Witnesses: the hypotheses of each statement can be met -/

theorem witness_EncodeOfDecodeIsTheWord : decodeWord 0x08FF#13 = some .rdcury ∧ decodeWord 0x1FFF#13 = some (.selfload 0xFF#8) := by
  decide

theorem witness_WriteWordFields : (15 < 16 ∧ 255 < 256) ∧ (0x1000 ≤ 0x1000 ∧ 0x1000 < 0x2000) ∧ (0x1000 ≤ 0x1FFF ∧ 0x1FFF < 0x2000) := by
  decide

theorem witness_ReadWordFields : 15 < 16 ∧ 255 < 256 := by decide

theorem witness_OutOfContractIsRefused :
    16 ≤ 16 ∧ (15 < 16 ∧ 256 ≤ 256) ∧ (15 < 16 ∧ 255 < 256) ∧ 0x2000 ≤ 0x2000 ∧ 0x1FFF < 0x2000 := by decide

theorem witness_StepRunsTheDecodedInstruction :
    ({ State.reset with inputs := [.bus 0x1C28] } : State).inputs = .bus 0x1C28 :: [] ∧
      decode 0x1C28 = .ok (.ldcurx 0x28#8) := by decide

theorem witness_StepRefusesAWordThatIsNoTransaction :
    ({ State.reset with inputs := [.bus 0x2000] } : State).inputs = .bus 0x2000 :: [] ∧ 0x2000 ≤ 0x2000 := by decide

theorem witness_LoadLastRowStoresTheByte : (31#8).toNat < 32 := by decide

theorem witness_ScrollUpIsAModularIncrement : [0#8, 0xFF#8] ≠ [] := by decide

theorem witness_WritesToDifferentCellsCommute :
    (Instr.ldcurx 1#8).isWrite = true ∧ (Instr.scrollup 2#8).isWrite = true ∧
      ∀ c ∈ destCells (.ldcurx 1#8), c ∉ destCells (.scrollup 2#8) := by decide

theorem witness_EveryWriteNotifiesOnce : ∀ i ∈ [Instr.ldcurx 1#8, Instr.rstcnt 2#8], i.isWrite = true := by decide

theorem witness_TransactionFrame :
    (∃ t, exec (.ldcury 5#8) State.reset = .next t ∧ (Instr.ldcury 5#8).isWrite = true ∧ 0x6 ∉ destCells (.ldcury 5#8)) ∧
      ∃ t, exec .rdcurx State.reset = .next t ∧ Instr.rdcurx.isWrite = false := ⟨⟨_, rfl, rfl, by decide⟩, _, rfl, rfl⟩

theorem witness_RegisterHalfIsIndependentOfTheTimer :
    SameRegisters State.reset running ∧ (∃ t, perform .hostReset State.reset = .next t) ∧
      ∃ t, perform (.bus 0x1C28) State.reset = .next t := ⟨⟨rfl, rfl, rfl⟩, ⟨_, rfl⟩, _, rfl⟩

theorem witness_TimerHalfIsIndependentOfTheRegisters :
    (SameTimer due { due with cells := (bank 0x1F 0x17 0x28).cells, dirty := 9 } ∧ (∃ t, perform .expiry due = .next t) ∧
      (∃ t, perform (.advance 1) due = .next t) ∧ (∃ t, idle due = .next t) ∧ (∃ t, perform .isBlanking due = .next t) ∧
      perform (.hostInitialize 1000000) due = .refused .secondInitialize) ∧
    (SameTimer State.reset (bank 0x1F 0x17 0x28) ∧ (∃ t, perform (.hostInitialize 212766) State.reset = .next t) ∧
      perform .expiry State.reset = .refused .expiryNotDue ∧
      perform .isBlanking State.reset = .refused .blankingReadBeforeInitialize) ∧
    idle { due with now := 59 } = .refused .timerOverdue :=
  ⟨⟨⟨rfl, rfl, rfl, rfl, rfl, rfl⟩, ⟨_, rfl⟩, ⟨_, rfl⟩, ⟨_, rfl⟩, ⟨_, rfl⟩, rfl⟩,
    ⟨⟨rfl, rfl, rfl, rfl, rfl, rfl⟩, ⟨_, rfl⟩, rfl, rfl⟩, rfl⟩

theorem witness_ChangesAreVisibleAtOnce :
    (due.initialised = true ∧ due.armed = some due.now) ∧ State.reset.initialised = false ∧ 212766 ≤ 212766 := by decide

theorem witness_HostResetClearsTheBankAlone :
    ({ blanking with inputs := [.hostReset] } : State).inputs = .hostReset :: [] := rfl

theorem witness_HostInitializeStartsInNonblank :
    ({ State.reset with inputs := [.hostInitialize 212766] } : State).inputs = .hostInitialize 212766 :: [] ∧
      State.reset.initialised = false ∧ 212766 ≤ 212766 := by decide

theorem witness_HostInitializeRefusals :
    (({ running with inputs := [.hostInitialize 5] } : State).inputs = .hostInitialize 5 :: [] ∧ running.initialised = true) ∧
      (({ State.reset with inputs := [.hostInitialize 212765] } : State).inputs = .hostInitialize 212765 :: [] ∧
        State.reset.initialised = false ∧ 212765 < 212766) ∧ 212766 ≤ 212766 := by decide

theorem witness_FirstDisplayRowIsOffsetPlusOne :
    (∃ t, exec (.ldlastrow 255#8) State.reset = .next t) ∧
      ∃ t, execAll ([1#8, 2#8].map Instr.scrollup) State.reset = .next t := ⟨⟨_, rfl⟩, _, rfl⟩

theorem witness_IsBlankingReadsThePhase :
    (({ blanking with inputs := [.isBlanking] } : State).inputs = .isBlanking :: [] ∧ blanking.initialised = true) ∧
      ({ State.reset with inputs := [.isBlanking] } : State).inputs = .isBlanking :: [] ∧
      State.reset.initialised = false := by decide

theorem witness_ExpiryTogglesAndRearms :
    (({ due with inputs := [.expiry] } : State).inputs = .expiry :: [] ∧ due.initialised = true ∧
        due.armed = some due.now ∧ due.phase = .nonblank) ∧
      ({ dueBack with inputs := [.expiry] } : State).inputs = .expiry :: [] ∧ dueBack.initialised = true ∧
        dueBack.armed = some dueBack.now ∧ dueBack.phase = .blank := by decide

theorem witness_ExpiryOnlyWhenDue :
    ({ running with inputs := [.expiry] } : State).inputs = .expiry :: [] ∧
      ¬(running.initialised = true ∧ running.armed = some running.now) ∧
      ({ State.reset with inputs := [.expiry] } : State).inputs = .expiry :: [] ∧
      ¬(State.reset.initialised = true ∧ State.reset.armed = some State.reset.now) := by decide

theorem witness_DueExpiryRunsBeforeTimePasses :
    due.initialised = true ∧ due.armed = some due.now ∧ due.inputs = [] ∧
      ({ due with inputs := [.advance 1] } : State).inputs = .advance (0 + 1) :: [] := by decide

/-- Both outcomes of the first clause at the deadline: 58 units end on it, 59 do not fit; and the second clause. -/
theorem witness_TimeStopsAtTheDeadline :
    (({ running with inputs := [.advance 58] } : State).inputs = .advance 58 :: [] ∧ running.initialised = true ∧
        running.armed = some 58 ∧ running.now < 58 ∧ running.now + 58 ≤ 58 ∧ ¬running.now + 59 ≤ 58) ∧
      ({ State.reset with inputs := [.advance 59] } : State).inputs = .advance 59 :: [] ∧
        State.reset.initialised = false := by decide

theorem witness_ClockNeverPassesADeadline :
    running.timerInv = true ∧ (∃ t, step { running with inputs := [.advance 60] } = .next t ∧ t.now ≠ running.now) ∧
      running.initialised = true ∧ running.armed = some 58 := ⟨by decide, ⟨_, rfl, by decide⟩, by decide, by decide⟩

theorem witness_TimerNeverStops :
    (running.timerInv = true ∧ running.initialised = true ∧ running.armed = some 58 ∧ running.inputs = []) ∧
      due.timerInv = true ∧ due.initialised = true ∧ due.armed = some 58 ∧ due.inputs = [] := by decide

theorem witness_AdvanceRunsToItsEnd :
    ({ due with inputs := [.advance 1000] } : State).timerInv = true ∧
      ({ due with inputs := [.advance 1000] } : State).inputs = .advance 1000 :: [] := by decide

theorem running_onTimeline : running.OnTimeline 0 0 := ⟨rfl, rfl, rfl, by decide, by decide⟩

theorem due_onTimeline : due.OnTimeline 0 0 := ⟨rfl, rfl, rfl, by decide, by decide⟩

theorem blanking_onTimeline : blanking.OnTimeline 0 1 := ⟨rfl, rfl, rfl, by decide, by decide⟩

theorem witness_EveryStepKeepsTheTimeline :
    due.timerInv = true ∧ due.OnTimeline 0 0 ∧ ∃ t, step due = .next t := ⟨by decide, due_onTimeline, _, rfl⟩

theorem witness_HostInitializeStartsTheTimeline :
    ({ State.reset with now := 100, inputs := [.hostInitialize 2000000] } : State).inputs = .hostInitialize 2000000 :: [] ∧
      State.reset.initialised = false ∧ 212766 ≤ 2000000 := by decide

/-- The three clauses: at `T0`, inside the first NONBLANK phase (time 57), inside the first BLANK phase (time 59). -/
theorem witness_PhaseIsTheClosedForm :
    (running.timerInv = true ∧ running.OnTimeline 0 0 ∧ running.now = 0) ∧
      (({ running with now := 57 } : State).timerInv = true ∧ ({ running with now := 57 } : State).OnTimeline 0 0 ∧
        0 < 57 % 62 ∧ 57 % 62 < 58) ∧
      ({ blanking with now := 59 } : State).timerInv = true ∧ ({ blanking with now := 59 } : State).OnTimeline 0 1 ∧
        58 < 59 % 62 :=
  ⟨⟨by decide, running_onTimeline, rfl⟩, ⟨by decide, ⟨rfl, rfl, rfl, by decide, by decide⟩, by decide, by decide⟩,
    by decide, ⟨rfl, rfl, rfl, by decide, by decide⟩, by decide⟩

/-- `initialize(1000000)`, then `n` units of time, then `isBlanking()`, at reset (R125's example: `N = 58`, `P = 62`). -/
def delayed (n : Nat) : State :=
  { State.reset with inputs := [.hostInitialize 1000000, .advance n, .isBlanking] }

/-- One delay for each clause: 0, the last instant before the first transition, the first one after it, and a later
period's. -/
theorem witness_BlankingAnswerAfterAnyDelay :
    (∀ n : Nat, (delayed n).inputs = .hostInitialize 1000000 :: .advance n :: .isBlanking :: []) ∧
    (delayed 0).initialised = false ∧ 212766 ≤ 1000000 ∧
    (0 < 57 % (1000000 * 588 / 10 ^ 7 + 1000000 * 47 / 10 ^ 7) ∧
      57 % (1000000 * 588 / 10 ^ 7 + 1000000 * 47 / 10 ^ 7) < 1000000 * 588 / 10 ^ 7) ∧
    1000000 * 588 / 10 ^ 7 < 59 % (1000000 * 588 / 10 ^ 7 + 1000000 * 47 / 10 ^ 7) ∧
    1000000 * 588 / 10 ^ 7 < 121 % (1000000 * 588 / 10 ^ 7 + 1000000 * 47 / 10 ^ 7) :=
  ⟨fun _ => rfl, by decide⟩

theorem witness_BothOrdersAtATransition : due.initialised = true ∧ due.armed = some due.now := by decide

theorem witness_ExpiryCommutesWithTheRest :
    dueBack.initialised = true ∧ dueBack.armed = some dueBack.now ∧ (∃ word, Input.bus 0x1B00 = .bus word) ∧
      ∃ freq, Input.hostInitialize 1000000 = .hostInitialize freq :=
  ⟨rfl, rfl, ⟨_, rfl⟩, _, rfl⟩

theorem witness_EveryStepKeepsTheBankInvariant :
    State.reset.bankInv = true ∧ ∃ t, step (State.reset.withFetchWord 16 0x1DFF) = .next t := ⟨by decide, _, rfl⟩

theorem witness_EveryStepKeepsTheTimerInvariant : due.timerInv = true ∧ ∃ t, step due = .next t := ⟨by decide, _, rfl⟩

theorem witness_ScrollOffsetLeavesItsRangeOnlyByALoad :
    (∃ t, step (State.reset.withFetchWord 16 0x1620) = .next t) ∧ (State.reset.cell 0x6).toNat < 32 ∧
      (State.reset.withFetchWord 16 0x1B00).nextInstr = some (.scrollup 0#8) ∧
      (State.reset.withFetchWord 16 0x161F).nextInstr = some (.ldlastrow 31#8) ∧ (31#8).toNat < 32 :=
  ⟨⟨_, rfl⟩, by decide, by decide, by decide, by decide⟩

theorem witness_OnlyWritesAndResetChangeACell :
    ∃ t, step (State.reset.withFetchWord 16 0x1C01) = .next t ∧ t.cell 0x9 ≠ State.reset.cell 0x9 :=
  ⟨_, rfl, by decide⟩

theorem witness_NotificationsCountTheBusWrites :
    ∃ t, step (State.reset.withFetchWord 16 0x1000) = .next t := ⟨_, rfl⟩

theorem witness_OnlyInitializeAndExpiryChangeThePhase : ∃ t, step due = .next t ∧ t.phase ≠ due.phase :=
  ⟨_, rfl, by decide⟩

theorem witness_DurationsAreSetOnce :
    (∃ t, step due = .next t ∧ due.initialised = true) ∧
      ∃ t, step { State.reset with inputs := [.hostInitialize 1000000] } = .next t ∧ State.reset.initialised = false ∧
        t.initialised = true := ⟨⟨_, rfl, rfl⟩, _, rfl, rfl, rfl⟩

theorem witness_NothingReadsTheBlankingStateBeforeInitialize :
    State.reset.initialised = false ∧
      step { State.reset with inputs := [.isBlanking] } = .refused .blankingReadBeforeInitialize ∧
      (∃ t, step { State.reset with inputs := [.hostInitialize 1000000] } = .next t ∧ t.initialised = true) ∧
      ∃ t, step (State.reset.withFetchWord 16 0x1C01) = .next t ∧ t.initialised = false :=
  ⟨rfl, rfl, ⟨_, rfl, rfl⟩, _, rfl, rfl⟩

theorem witness_OperationsWithinTheContractComplete :
    ({ due with inputs := [.expiry] } : State).timerInv = true ∧ ({ due with inputs := [.expiry] } : State).inContract = true ∧
      ({ State.reset with inputs := [.bus 0x1FFF] } : State).timerInv = true ∧
      ({ State.reset with inputs := [.bus 0x1FFF] } : State).inContract = true ∧
      ({ State.reset with inputs := [.hostInitialize 212766] } : State).inContract = true := by decide

theorem witness_RefusalsAreTheSpecsOwn :
    (State.reset.timerInv = true ∧ step { State.reset with inputs := [.bus 0x2000] } = .refused .notATransactionWord ∧
      step { State.reset with inputs := [.hostInitialize 212765] } = .refused .zeroDuration ∧
      step { State.reset with inputs := [.isBlanking] } = .refused .blankingReadBeforeInitialize) ∧
      running.timerInv = true ∧ step { running with inputs := [.hostInitialize 1] } = .refused .secondInitialize ∧
      step { running with inputs := [.expiry] } = .refused .expiryNotDue :=
  ⟨⟨by decide, rfl, rfl, rfl⟩, by decide, rfl, rfl⟩

end Sys2Proof.Tests
end

/-! ## The bus transactions are the primitives of R42 and R43

`memRead` and `memWriteEffect` case by case, then each family of ports against them: the twelve write ports without a
function, the four with one, the fourteen read ports that return 0 and the two that return a cursor cell. -/

namespace Sys2Proof.Machine

/-- R43's last line, `otherwise: nothing`. -/
theorem memWriteEffect_of_noFunction {p : Port} (hp : p ∉ [0x6#4, 0xB#4, 0xC#4, 0xD#4]) (v : Byte) (s : State) :
    memWriteEffect p v s = s := by
  simp only [List.mem_cons, List.not_mem_nil, or_false, not_or] at hp
  obtain ⟨h6, hB, hC, hD⟩ := hp
  simp only [memWriteEffect, h6, hB, hC, hD, if_false]

@[simp] theorem memWriteEffect_loadLastRow (v : Byte) (s : State) :
    memWriteEffect 0x6#4 v s = s.setCell scrollOffsetCell (wholeValue v) := rfl

@[simp] theorem memWriteEffect_scrollUp (v : Byte) (s : State) : memWriteEffect 0xB#4 v s = s.scrollUp := rfl

@[simp] theorem memWriteEffect_loadCursorX (v : Byte) (s : State) :
    memWriteEffect 0xC#4 v s = s.setCell cursorXCell (wholeValue v) := rfl

@[simp] theorem memWriteEffect_loadCursorY (v : Byte) (s : State) :
    memWriteEffect 0xD#4 v s = s.setCell cursorYCell (lowSixBits v) := rfl

@[simp] theorem memRead_cursorY (s : State) : memRead 0x8#4 s = s.cell cursorYCell := rfl

@[simp] theorem memRead_cursorX (s : State) : memRead 0x9#4 s = s.cell cursorXCell := rfl

/-- R42's last line, `else return 0x00`. -/
theorem memRead_of_noCell {p : Port} (h8 : p ≠ 0x8#4) (h9 : p ≠ 0x9#4) (s : State) : memRead p s = 0x00#8 := by
  rw [memRead, if_neg h8, if_neg h9]

/-- A bus write whose effect is R43's at the port is R43's write: the register update, then the notification. -/
theorem busWrite_eq_memWrite {effect : State → State} {p : Port} {v : Byte}
    (h : ∀ s, memWriteEffect p v s = effect s) (s : State) : busWrite effect s = .next (memWrite p v s) := by
  rw [busWrite, memWrite, h]

theorem inertWrite_eq_memWrite {p : Port} (hp : p ∉ [0x6#4, 0xB#4, 0xC#4, 0xD#4]) (v : Byte) (s : State) :
    inertWrite s = .next (memWrite p v s) :=
  busWrite_eq_memWrite (memWriteEffect_of_noFunction hp v) s

/-- A bus read that returns R42's byte of the port. -/
theorem busRead_eq_memRead {p : Port} {b : Byte} {s : State} (h : memRead p s = b) :
    busRead p b s = .next (s.answer (.read p (memRead p s))) := by
  rw [busRead, h]

/-- R43: every write port is the write primitive. -/
theorem exec_of_isWrite {i : Instr} (hw : i.isWrite = true) (s : State) :
    exec i s = .next (memWrite i.port i.value s) := by
  cases i with
  | ldlastrow v => exact busWrite_eq_memWrite (memWriteEffect_loadLastRow v) s
  | scrollup v => exact busWrite_eq_memWrite (memWriteEffect_scrollUp v) s
  | ldcurx v => exact busWrite_eq_memWrite (memWriteEffect_loadCursorX v) s
  | ldcury v => exact busWrite_eq_memWrite (memWriteEffect_loadCursorY v) s
  | ldctl0 v | ldctl1 v | ldctl2 v | ldctl3 v | ldctl4 v | ldctl5 v | procload v | wnull8 v | wnull9 v | rstcnt v
  | starttim v | selfload v => exact inertWrite_eq_memWrite (by simp [Instr.port]) v s
  | _ => cases hw

/-- R42: every read port is the read primitive. -/
theorem exec_of_isRead {i : Instr} (hr : i.isWrite = false) (s : State) :
    exec i s = .next (s.answer (.read i.port (memRead i.port s))) := by
  cases i with
  | rdcury => exact busRead_eq_memRead (memRead_cursorY s)
  | rdcurx => exact busRead_eq_memRead (memRead_cursorX s)
  | rnull0 | rnull1 | rnull2 | rnull3 | rnull4 | rnull5 | rnull6 | rnull7
  | rnullA | rnullB | rnullC | rnullD | rnullE | rnullF =>
    exact busRead_eq_memRead (memRead_of_noCell (by decide) (by decide) s)
  | _ => cases hr

/-- Settles O21: the direction bit says which of the two primitives the transaction is. -/
theorem transactionsAreTheBusPrimitives : Obligations.TransactionsAreTheBusPrimitives := by
  intro i s
  split
  next hw => exact exec_of_isWrite hw s
  next hr => exact exec_of_isRead (Bool.eq_false_iff.2 hr) s

end Sys2Proof.Machine

/-! ## The write ports (R80 to R96)

First the decoder at the words of R61 and R62: a word is decoded from its direction and its port alone, and the row
found builds the instruction from the value. Then the twelve ports without a function as one lemma, the four with a
function as one equation each, and `n` scroll-ups as one closed form. -/

namespace Sys2Proof

/-! ### Decoding a word by its fields -/

/-- The mask of R63 and R64 keeps the direction and the port and clears the value. -/
theorem wordOfFields_and_mask (w : Bool) (p : Port) (v : Byte) :
    wordOfFields w p v &&& 0x1F00#13 = wordOfFields w p 0#8 := by
  have mask : (0x1F00#13 : TransWord) = BitVec.ofBool true ++ BitVec.allOnes 4 ++ 0#8 := by decide
  rw [wordOfFields, mask, BitVec.and_append, BitVec.and_append, BitVec.and_allOnes, BitVec.and_zero]
  cases w <;> rfl

/-- Every row of both tables has the same mask (R63, R64). -/
theorem mask_of_mem_decodeRows : ∀ r ∈ decodeRows, r.mask = 0x1F00#13 := by
  simp [decodeRows, writeRows, readRows]

theorem decodeWord_wordOfFields (w : Bool) (p : Port) (v : Byte) :
    decodeWord (wordOfFields w p v) =
      (decodeRows.find? fun r => wordOfFields w p 0#8 == r.matchBits).map fun r => r.build v := by
  have rowFound : decodeRows.find? (fun r => r.selects (wordOfFields w p v)) =
      decodeRows.find? fun r => wordOfFields w p 0#8 == r.matchBits :=
    List.find?_congr fun r hr => by rw [DecodeRow.selects, mask_of_mem_decodeRows r hr, wordOfFields_and_mask]
  rw [decodeWord, rowFound, value_wordOfFields]

/-- The row found at an instruction's direction and port is the instruction's own. -/
theorem decodeWord_encode (i : Instr) : decodeWord (encode i) = some i := by
  rw [encode, decodeWord_wordOfFields]
  cases i <;> dsimp only [Instr.isWrite, Instr.port, Instr.value] <;> rfl

theorem decode_toNat {w : TransWord} {i : Instr} (h : decodeWord w = some i) : decode w.toNat = .ok i := by
  have wf : wordWf w.toNat = true := decide_eq_true w.isLt
  rw [decode, if_pos wf, BitVec.ofNat_toNat, BitVec.setWidth_eq, h]

/-- R61: the word of the call `write(port, value)` decodes to the port's write of that value. -/
theorem decode_of_isWrite {i : Instr} {p : Port} {v : Byte} (hw : i.isWrite = true) (hp : i.port = p)
    (hv : i.value = v) : decode (0x1000 + p.toNat * 0x100 + v.toNat) = .ok i := by
  have word : (encode i).toNat = 0x1000 + p.toNat * 0x100 + v.toNat := by
    rw [encode, toNat_wordOfFields, hw, hp, hv, Bool.toNat_true, Nat.one_mul]
  exact word ▸ decode_toNat (decodeWord_encode i)

end Sys2Proof

namespace Sys2Proof.Machine

/-! ### The twelve ports without a function -/

/-- A port of which R43 says `otherwise: nothing` is an inert write port, and what it reads back is R42's byte. -/
theorem inertWritePort_of_noFunction {write : Byte → Instr} {read : Instr} {port : Port} {readBack : State → Byte}
    (hw : ∀ v, (write v).isWrite = true ∧ (write v).port = port ∧ (write v).value = v)
    (hr : read.isWrite = false ∧ read.port = port) (hp : port ∉ [0x6#4, 0xB#4, 0xC#4, 0xD#4])
    (hb : ∀ s : State, memRead port s.markDirty = readBack s) :
    InertWritePort write read port (0x1000 + port.toNat * 0x100) readBack := by
  intro v s
  obtain ⟨isWrite, writePort, writeValue⟩ := hw v
  obtain ⟨isRead, readPort⟩ := hr
  refine ⟨decode_of_isWrite isWrite writePort writeValue, ?_, ?_⟩
  · rw [exec_of_isWrite isWrite, writePort, memWrite, memWriteEffect_of_noFunction hp, State.markDirty]
  · show exec read s.markDirty = .next (s.markDirty.answer (.read port (readBack s)))
    rw [exec_of_isRead isRead, readPort, hb]

/-- Settles O11: each of the twelve ports is one of R43's `otherwise`; ports 0x8 and 0x9 read back a cursor cell, which
the notification leaves as it was. -/
theorem inertWritesOnlyNotify : Obligations.InertWritesOnlyNotify := by
  refine ⟨?_, ?_, ?_, ?_, ?_, ?_, ?_, ?_, ?_, ?_, ?_, ?_⟩
  all_goals
    exact inertWritePort_of_noFunction (fun _ => ⟨rfl, rfl, rfl⟩) ⟨rfl, rfl⟩ (by decide) (fun _ => rfl)

/-! ### The four ports with a function -/

/-- R87: the whole byte to the scroll-offset cell. -/
theorem exec_ldlastrow (v : Byte) (s : State) : exec (.ldlastrow v) s = .next (s.setCell 0x6 v).markDirty := rfl

/-- R93: the whole byte to the cursor X cell. -/
theorem exec_ldcurx (v : Byte) (s : State) : exec (.ldcurx v) s = .next (s.setCell 0x9 v).markDirty := rfl

/-- R94: six bits to the cursor Y cell. -/
theorem exec_ldcury (v : Byte) (s : State) :
    exec (.ldcury v) s = .next (s.setCell 0x8 (lowSixBits v)).markDirty := rfl

theorem toNat_lowSixBits (v : Byte) : (lowSixBits v).toNat = v.toNat % 64 := by
  rw [lowSixBits, BitVec.toNat_and]
  exact Nat.and_two_pow_sub_one_eq_mod v.toNat 6

/-- R42's last line, at a port that reads no cell. -/
theorem exec_of_isRead_of_noCell {i : Instr} (hr : i.isWrite = false) (hp : i.port ≠ 0x8#4 ∧ i.port ≠ 0x9#4)
    (s : State) : exec i s = .next (s.answer (.read i.port 0#8)) := by
  rw [exec_of_isRead hr, memRead_of_noCell hp.1 hp.2]

/-- R124: the first displayed row, as a number. -/
theorem State.val_firstDisplayRow (s : State) : s.firstDisplayRow.val = ((s.cell 0x6).toNat + 1) % 32 :=
  Nat.mod_eq_of_lt (rowAfter_lt _)

/-- A cell read back after the write that stores to it. -/
theorem State.cell_setCell_markDirty (s : State) (c : Fin 16) (v : Byte) : (s.setCell c v).markDirty.cell c = v := by
  simp

/-- The state after `n` scroll-ups, for `n` at least 1: the offset `n` rows on modulo `ROW_COUNT`, `n` notifications
(R92). -/
def State.scrolledBy (s : State) (n : Nat) : State :=
  { s.setCell 0x6 (BitVec.ofNat 8 (((s.cell 0x6).toNat + n) % 32)) with dirty := s.dirty + n }

/-- R92: one command, whatever the value. -/
theorem exec_scrollup (v : Byte) (s : State) : exec (.scrollup v) s = .next (s.scrolledBy 1) := rfl

theorem State.cell_scrolledBy (s : State) (n : Nat) :
    (s.scrolledBy n).cell 0x6 = BitVec.ofNat 8 (((s.cell 0x6).toNat + n) % 32) :=
  (s.cell_setCell ..).trans (if_pos rfl)

theorem State.toNat_cell_scrolledBy (s : State) (n : Nat) :
    ((s.scrolledBy n).cell 0x6).toNat = ((s.cell 0x6).toNat + n) % 32 := by
  rw [State.cell_scrolledBy, BitVec.toNat_ofNat]
  omega

theorem State.val_firstDisplayRow_scrolledBy (s : State) (n : Nat) :
    (s.scrolledBy n).firstDisplayRow.val = ((s.cell 0x6).toNat + n + 1) % 32 := by
  rw [State.val_firstDisplayRow, State.toNat_cell_scrolledBy, Nat.mod_add_mod]

/-- Nothing but cell 0x6 and the count of notifications differs. -/
theorem State.scrolledBy_eq (s : State) (n : Nat) :
    s.scrolledBy n = { s with cells := s.cells.set 0x6 ((s.scrolledBy n).cell 0x6), dirty := s.dirty + n } := by
  rw [State.cell_scrolledBy]
  rfl

/-- The offset is already below 32 after the first command, so reducing it again and again adds up. -/
theorem State.scrolledBy_scrolledBy (s : State) (m n : Nat) :
    (s.scrolledBy m).scrolledBy n = s.scrolledBy (m + n) := by
  have offset : (((s.scrolledBy m).cell 0x6).toNat + n) % 32 = ((s.cell 0x6).toNat + (m + n)) % 32 := by
    rw [State.toNat_cell_scrolledBy, Nat.mod_add_mod, Nat.add_assoc]
  rw [State.scrolledBy, offset]
  simp [State.scrolledBy, State.setCell, Nat.add_assoc]

/-- Commands that follow `m` others: `n` more rows. -/
theorem execAll_scrollup (values : List Byte) (s : State) (m : Nat) :
    execAll (values.map Instr.scrollup) (s.scrolledBy m) = .next (s.scrolledBy (m + values.length)) := by
  induction values generalizing m with
  | nil => rfl
  | cons v vs ih =>
    show execAll (vs.map Instr.scrollup) ((s.scrolledBy m).scrolledBy 1) = _
    rw [State.scrolledBy_scrolledBy, ih, List.length_cons, Nat.add_assoc, Nat.add_comm 1]

/-- Settles O13: one command is `scrolledBy 1`; a non-empty list is its first command, then the induction of
`execAll_scrollup` over the others. -/
theorem scrollUpIsAModularIncrement : Obligations.ScrollUpIsAModularIncrement := by
  constructor
  · intro v s
    exact ⟨s.scrolledBy 1, decode_of_isWrite (p := 0xB#4) rfl rfl rfl, exec_scrollup v s, s.scrolledBy_eq 1,
      s.toNat_cell_scrolledBy 1, s.val_firstDisplayRow_scrolledBy 1,
      exec_of_isRead_of_noCell (i := .rnullB) rfl (by decide) s⟩
  · intro values s hne
    refine ⟨s.scrolledBy values.length, ?_, s.scrolledBy_eq _, s.toNat_cell_scrolledBy _,
      s.val_firstDisplayRow_scrolledBy _⟩
    cases values with
    | nil => exact absurd rfl hne
    | cons v vs =>
      show execAll (vs.map Instr.scrollup) (s.scrolledBy 1) = _
      rw [execAll_scrollup, List.length_cons, Nat.add_comm]

/-- Settles O12: the store is whole, so the observer's modulus and the next scroll-up bring the offset below 32. -/
theorem loadLastRowStoresTheByte : Obligations.LoadLastRowStoresTheByte := by
  intro v s
  have stored := s.cell_setCell_markDirty 0x6 v
  refine ⟨(s.setCell 0x6 v).markDirty, decode_of_isWrite (p := 0x6#4) rfl rfl rfl, exec_ldlastrow v s, rfl, stored, ?_,
    exec_of_isRead_of_noCell (i := .rnull6) rfl (by decide) _, ?_, ?_⟩
  · rw [State.val_firstDisplayRow, stored]
  · intro v'
    refine ⟨_, exec_scrollup v' _, ?_⟩
    rw [State.toNat_cell_scrolledBy]
    exact Nat.mod_lt _ (by decide)
  · intro v' hv'
    refine ⟨_, exec_ldlastrow v' _, ?_⟩
    rwa [State.cell_setCell_markDirty]

/-- Settles O14: the byte stored is the byte read at port 0x9; cell 0x8 is another cell. -/
theorem loadCursorXStoresTheByte : Obligations.LoadCursorXStoresTheByte := by
  intro v s
  have stored := s.cell_setCell_markDirty 0x9 v
  refine ⟨(s.setCell 0x9 v).markDirty, decode_of_isWrite (p := 0xC#4) rfl rfl rfl, exec_ldcurx v s, rfl, stored,
    (s.cell_setCell 0x9 0x8 v).trans (if_neg (by decide)), ?_,
    exec_of_isRead_of_noCell (i := .rnullC) rfl (by decide) _⟩
  rw [exec_of_isRead (i := .rdcurx) rfl, Instr.port, memRead_cursorX, cursorXCell, stored, State.answer]

/-- Settles O15: the mask is the remainder modulo 64, and the masked byte is the one read at port 0x8. -/
theorem loadCursorYStoresSixBits : Obligations.LoadCursorYStoresSixBits := by
  intro v s
  have stored := s.cell_setCell_markDirty 0x8 (lowSixBits v)
  refine ⟨(s.setCell 0x8 (lowSixBits v)).markDirty, decode_of_isWrite (p := 0xD#4) rfl rfl rfl, exec_ldcury v s, rfl, ?_,
    (s.cell_setCell 0x8 0x9 _).trans (if_neg (by decide)), ?_,
    exec_of_isRead_of_noCell (i := .rnullD) rfl (by decide) _⟩
  · rw [State.cursorY, cursorYCell, stored, toNat_lowSixBits]
  · rw [exec_of_isRead (i := .rdcury) rfl, Instr.port, memRead_cursorY, cursorYCell, stored, State.answer, lowSixBits]

end Sys2Proof.Machine

/-! ## The read ports (R100 to R116)

First the decoder at the words of R62, whose low byte carries nothing. Then the fourteen ports that read no cell as one
lemma, and the two cursor ports: what they return depends on one cell, so each clause is that cell after the operation
before the read. -/

namespace Sys2Proof

/-- The row of a read builds the same instruction from every low byte (R62, R64). -/
theorem decodeWord_of_isRead {i : Instr} (hr : i.isWrite = false) (low : Byte) :
    decodeWord (wordOfFields false i.port low) = some i := by
  rw [decodeWord_wordOfFields]
  cases i with
  | rnull0 | rnull1 | rnull2 | rnull3 | rnull4 | rnull5 | rnull6 | rnull7 | rdcury | rdcurx
  | rnullA | rnullB | rnullC | rnullD | rnullE | rnullF => rfl
  | _ => cases hr

/-- R62: the word of the call `read(port)`, whatever its low byte, decodes to the port's read. -/
theorem decode_of_isRead {i : Instr} {p : Port} (hr : i.isWrite = false) (hp : i.port = p) (low : Byte) :
    decode (p.toNat * 0x100 + low.toNat) = .ok i := by
  have word : (wordOfFields false i.port low).toNat = p.toNat * 0x100 + low.toNat := by
    rw [toNat_wordOfFields, hp, Bool.toNat_false, Nat.zero_mul, Nat.zero_add]
  exact word ▸ decode_toNat (decodeWord_of_isRead hr low)

end Sys2Proof

namespace Sys2Proof.Machine

/-! ### The fourteen ports that read no cell -/

/-- A port of which R42 says `else return 0x00` is an inert read port. -/
theorem inertReadPort_of_noCell {read : Instr} {port : Port} (hr : read.isWrite = false) (hp : read.port = port)
    (h : port ≠ 0x8#4 ∧ port ≠ 0x9#4) : InertReadPort read port (port.toNat * 0x100) := by
  intro low s
  subst hp
  exact ⟨decode_of_isRead hr rfl low, exec_of_isRead_of_noCell hr h s⟩

/-- Settles O18: ports 0x0 to 0x7 read no cell. -/
theorem lowInertReadsReturnZero : Obligations.LowInertReadsReturnZero := by
  refine ⟨?_, ?_, ?_, ?_, ?_, ?_, ?_, ?_⟩
  all_goals exact inertReadPort_of_noCell rfl rfl (by decide)

/-- Settles O19: ports 0xA to 0xF read no cell; in particular 0xB is a command only when written, and the cursor written
at 0xC and 0xD is read at 0x9 and 0x8. -/
theorem highInertReadsReturnZero : Obligations.HighInertReadsReturnZero := by
  refine ⟨?_, ?_, ?_, ?_, ?_, ?_⟩
  all_goals exact inertReadPort_of_noCell rfl rfl (by decide)

/-! ### The two cursor ports -/

/-- R109: port 0x8 returns the cursor Y cell. -/
theorem exec_rdcury {s : State} {b : Byte} (h : s.cell 0x8 = b) :
    exec .rdcury s = .next (s.answer (.read 0x8#4 b)) :=
  h ▸ exec_of_isRead rfl s

/-- R110: port 0x9 returns the cursor X cell. -/
theorem exec_rdcurx {s : State} {b : Byte} (h : s.cell 0x9 = b) :
    exec .rdcurx s = .next (s.answer (.read 0x9#4 b)) :=
  h ▸ exec_of_isRead rfl s

/-- R89: port 0x8 has no function when written. -/
theorem exec_wnull8 (v : Byte) (s : State) : exec (.wnull8 v) s = .next s.markDirty := rfl

/-- R90: port 0x9 has no function when written. -/
theorem exec_wnull9 (v : Byte) (s : State) : exec (.wnull9 v) s = .next s.markDirty := rfl

/-- Two transactions that complete, one after the other. -/
theorem execAll_pair {i j : Instr} {s t u : State} (hi : exec i s = .next t) (hj : exec j t = .next u) :
    execAll [i, j] s = .next u := by
  simp only [execAll, hi, hj]

/-- R171: a cell before anything has written it. -/
theorem State.cell_powerOn (c : Fin 16) : State.powerOn.cell c = Config.powerOnCell c := by
  simp [State.cell, State.powerOn]

/-- Settles O20: the cell read is 0 after `reset()`, the byte stored after a load, as it was after a write to the read
port's own number, and the power-on byte before any operation. -/
theorem cursorReadsReturnTheCells : Obligations.CursorReadsReturnTheCells := by
  refine ⟨?anyState, ?afterReset, ?afterLoad, ?afterInertWrite, exec_rdcury (State.cell_powerOn 0x8),
    exec_rdcurx (State.cell_powerOn 0x9)⟩
  case anyState =>
    intro low s
    exact ⟨decode_of_isRead (p := 0x8#4) rfl rfl low, decode_of_isRead (p := 0x9#4) rfl rfl low, exec_rdcury rfl,
      exec_rdcurx rfl, rfl, rfl⟩
  case afterReset =>
    intro s
    exact ⟨s.clearCells, rfl, exec_rdcury (s.cell_clearCells 0x8), exec_rdcurx (s.cell_clearCells 0x9)⟩
  case afterLoad =>
    intro v s
    have storedY := s.cell_setCell_markDirty 0x8 (lowSixBits v)
    have storedX := s.cell_setCell_markDirty 0x9 v
    exact ⟨_, _, execAll_pair (exec_ldcury v s) (exec_rdcury storedY), rfl,
      execAll_pair (exec_ldcurx v s) (exec_rdcurx storedX), rfl⟩
  case afterInertWrite =>
    intro v s
    exact ⟨_, _, execAll_pair (exec_wnull8 v s) (exec_rdcury (s.cell_markDirty 0x8)), rfl,
      execAll_pair (exec_wnull9 v s) (exec_rdcurx (s.cell_markDirty 0x9)), rfl⟩

end Sys2Proof.Machine

/-! ## The operations with no bus encoding (R120 to R127) -/

namespace Sys2Proof.Machine

/-! ### `firstDisplayRow()` -/

/-- R124: the accessor completes in every state, with the row as its only trace. -/
theorem step_firstDisplayRow (s : State) (rest : List Input) :
    step { s with inputs := .firstDisplayRow :: rest } =
      .next { s with inputs := rest, answers := .firstDisplayRow s.firstDisplayRow :: s.answers } :=
  step_cons s .firstDisplayRow rest

/-- `n` scroll-ups move the first displayed row on by `n`; with none, an offset of 32 or more is reduced by the observer
alone. -/
theorem val_firstDisplayRow_of_execAll_scrollup {values : List Byte} {s t : State}
    (h : execAll (values.map Instr.scrollup) s = .next t) :
    t.firstDisplayRow.val = ((s.cell 0x6).toNat + values.length + 1) % 32 := by
  cases values with
  | nil =>
    cases h
    exact s.val_firstDisplayRow
  | cons v vs =>
    obtain ⟨u, hu, -, -, row⟩ := scrollUpIsAModularIncrement.2 (v :: vs) s (List.cons_ne_nil v vs)
    cases hu.symm.trans h
    exact row

/-- Settles O31: each clause is R124's row at the cell left by the operation before it. -/
theorem firstDisplayRowIsOffsetPlusOne : Obligations.FirstDisplayRowIsOffsetPlusOne := by
  refine ⟨?anyState, ?afterReset, ?afterLoad, fun _ _ _ h => val_firstDisplayRow_of_execAll_scrollup h⟩
  case anyState =>
    intro s rest
    exact ⟨s.firstDisplayRow, step_firstDisplayRow s rest, s.val_firstDisplayRow⟩
  case afterReset =>
    -- `State.reset` is the state after `reset()` from power-on.
    have cleared : State.reset.cell 0x6 = 0#8 := State.powerOn.cell_clearCells 0x6
    rw [State.val_firstDisplayRow, cleared]
    rfl
  case afterLoad =>
    intro v s t h
    cases (exec_ldlastrow v s).symm.trans h
    rw [State.val_firstDisplayRow, State.cell_setCell_markDirty]

end Sys2Proof.Machine

/-! ## The notifications of a step (R154) -/

namespace Sys2Proof.Machine

theorem nextIsWrite_of_decode {s : State} {word : Nat} {rest : List Input} {i : Instr} (h : s.inputs = .bus word :: rest)
    (hd : decode word = .ok i) : s.nextIsWrite = i.isWrite := by
  rw [State.nextIsWrite, nextInstr_of_decode h hd, Option.any_some]

theorem nextIsWrite_of_no_input {s : State} (h : s.inputs = []) : s.nextIsWrite = false := by
  rw [State.nextIsWrite, State.nextInstr, h, Option.any_none]

/-- Time passes by itself or as the next operation, and that is no bus write. -/
theorem nextIsWrite_of_time {s : State} (h : s.inputs = [] ∨ ∃ n rest, s.inputs = .advance n :: rest) :
    s.nextIsWrite = false := by
  rcases h with h | ⟨n, rest, h⟩
  · exact nextIsWrite_of_no_input h
  · exact nextIsWrite_of_other h (by simp)

/-- An expiry runs by itself, or as the next operation, or on the way of time passing, and that is no bus write. -/
theorem nextIsWrite_of_expiry {s : State}
    (h : s.inputs = [] ∨ (∃ rest, s.inputs = .expiry :: rest) ∨ ∃ n rest, s.inputs = .advance n :: rest) :
    s.nextIsWrite = false := by
  rcases h with h | ⟨rest, h⟩ | h
  · exact nextIsWrite_of_no_input h
  · exact nextIsWrite_of_other h (by simp)
  · exact nextIsWrite_of_time (.inr h)

/-- Settles O51: of everything a step can do only the two bus writes, with and without a store, notify the FrameSink,
once each; the operation of every other step is no bus write. -/
theorem notificationsCountTheBusWrites : Obligations.NotificationsCountTheBusWrites := by
  intro s t h
  cases step_effect h with
  | notify i word rest input decoded write _ eq => simp [eq, nextIsWrite_of_decode input decoded, write]
  | store i word rest c v input decoded write _ _ eq => simp [eq, nextIsWrite_of_decode input decoded, write]
  | reply e rest a _ _ noWrite eq => simp [eq, noWrite]
  | clear rest input eq => simp [eq, nextIsWrite_of_other input]
  | start freq rest input _ _ eq => simp [eq, nextIsWrite_of_other input]
  | expire rest input _ eq => simp [eq, nextIsWrite_of_expiry input]
  | pass n rest input _ eq => simp [eq, nextIsWrite_of_time input]

end Sys2Proof.Machine

/-! ## `reset()` (R120, R170) -/

namespace Sys2Proof.Machine

/-- R120: a second `reset()` finds every cell already 0. -/
theorem hostReset_clearCells (s : State) : hostReset s.clearCells = .next s.clearCells := rfl

/-- R124 at the cleared bank: the row after row 0. -/
theorem State.val_firstDisplayRow_clearCells (s : State) : s.clearCells.firstDisplayRow.val = 1 := by
  rw [State.val_firstDisplayRow, State.cell_clearCells]
  rfl

/-- Neither taking an operation from the inputs nor clearing the cells touches the timer's half. -/
theorem State.sameTimer_clearCells (s : State) (rest : List Input) :
    SameTimer s ({ s with inputs := rest } : State).clearCells := ⟨rfl, rfl, rfl, rfl, rfl, rfl⟩

/-- R120: `reset()` completes in every state with the cells cleared. -/
theorem step_hostReset {s : State} {rest : List Input} (h : s.inputs = .hostReset :: rest) :
    step s = .next ({ s with inputs := rest } : State).clearCells :=
  step_of_input h

/-- Settles O25: the next state is the cleared bank, so each value stated is read off a cell that is 0; the timer's
half and the count are as they were. -/
theorem hostResetClearsTheBankAlone : Obligations.HostResetClearsTheBankAlone := by
  intro s rest h
  have cleared := State.cell_clearCells { s with inputs := rest }
  exact ⟨_, step_hostReset h, rfl, cleared, cleared cursorXCell, cleared cursorYCell, cleared scrollOffsetCell,
    State.val_firstDisplayRow_clearCells _, exec_rdcury (cleared 0x8), exec_rdcurx (cleared 0x9),
    s.sameTimer_clearCells rest, rfl, hostReset_clearCells _⟩

end Sys2Proof.Machine

/-! ## The words of the bus (R60 to R69)

A word is its three fields, and there is an instruction at every direction, port and value. So a word is decoded by
naming that instruction, and every word rule below is read off it. -/

namespace Sys2Proof

/-! ### A word is its fields -/

/-- The three fields of a word make it up. -/
theorem wordOfFields_fields (w : TransWord) :
    wordOfFields (w.getLsbD 12) (w.extractLsb' 8 4) (valueField w) = w := by
  have hw := w.isLt
  have bit12 : (w.getLsbD 12).toNat = w.toNat / 0x1000 % 2 := by
    rw [BitVec.getLsbD, Nat.toNat_testBit]
  apply BitVec.eq_of_toNat_eq
  rw [toNat_wordOfFields, bit12, valueField, BitVec.extractLsb'_toNat, BitVec.extractLsb'_toNat,
    Nat.shiftRight_eq_div_pow, Nat.shiftRight_zero]
  omega

/-- A statement about words is one about their fields. -/
theorem forall_word_iff {P : TransWord → Prop} : (∀ w, P w) ↔ ∀ d p v, P (wordOfFields d p v) :=
  ⟨fun h _ _ _ => h _, fun h w => wordOfFields_fields w ▸ h _ _ _⟩

/-- R63: every port has its write, with any value. -/
theorem exists_write (p : Port) (v : Byte) : ∃ i : Instr, i.isWrite = true ∧ i.port = p ∧ i.value = v := by
  have fields : ∀ r ∈ writeRows, (r.build v).isWrite = true ∧ (r.build v).value = v := by
    simp [writeRows, Instr.isWrite, Instr.value]
  have ports : p ∈ writeRows.map fun r => (r.build v).port := by
    simp only [writeRows, List.map_cons, List.map_nil, Instr.port]
    revert p
    decide
  obtain ⟨r, hr, hp⟩ := List.mem_map.1 ports
  obtain ⟨isWrite, value⟩ := fields r hr
  exact ⟨r.build v, isWrite, hp, value⟩

/-- R64: every port has its read. -/
theorem exists_read (p : Port) : ∃ i : Instr, i.isWrite = false ∧ i.port = p := by
  have reads : ∀ r ∈ readRows, (r.build 0#8).isWrite = false := by
    simp [readRows, Instr.isWrite]
  have ports : p ∈ readRows.map fun r => (r.build 0#8).port := by
    simp only [readRows, List.map_cons, List.map_nil, Instr.port]
    revert p
    decide
  obtain ⟨r, hr, hp⟩ := List.mem_map.1 ports
  exact ⟨r.build 0#8, reads r hr, hp⟩

/-- A read's byte is written as 0 (R62). -/
theorem value_of_isRead {i : Instr} (hr : i.isWrite = false) : i.value = 0#8 := by
  cases i with
  | rnull0 | rnull1 | rnull2 | rnull3 | rnull4 | rnull5 | rnull6 | rnull7 | rdcury | rdcurx
  | rnullA | rnullB | rnullC | rnullD | rnullE | rnullF => rfl
  | _ => cases hr

/-- What the word with these fields decodes to, by what that encodes to: a write to the whole word, a read to the word
with its low byte cleared. -/
theorem exists_decodeWord_wordOfFields (d : Bool) (p : Port) (v : Byte) :
    ∃ i, decodeWord (wordOfFields d p v) = some i ∧ i.isWrite = d ∧
      encode i = if d then wordOfFields d p v else wordOfFields d p v &&& 0x1F00#13 := by
  cases d with
  | true =>
    obtain ⟨i, isWrite, port, value⟩ := exists_write p v
    have word : encode i = wordOfFields true p v := by rw [encode, isWrite, port, value]
    exact ⟨i, word ▸ decodeWord_encode i, isWrite, word⟩
  | false =>
    obtain ⟨i, isRead, port⟩ := exists_read p
    have word : encode i = wordOfFields false p v &&& 0x1F00#13 := by
      rw [wordOfFields_and_mask, encode, isRead, port, value_of_isRead isRead]
    exact ⟨i, port ▸ decodeWord_of_isRead isRead v, isRead, word⟩

/-! ### Round trips -/

/-- Settles O2: the row found at an instruction's own fields is its own. -/
theorem decodeOfEncodeIsTheInstruction : Obligations.DecodeOfEncodeIsTheInstruction :=
  fun i => decode_toNat (decodeWord_encode i)

/-- Settles O3: the instruction at the word's fields is what the word decodes to. -/
theorem encodeOfDecodeIsTheWord : Obligations.EncodeOfDecodeIsTheWord := by
  refine forall_word_iff.2 fun d p v i hi => ?_
  obtain ⟨j, decoded, direction, encoded⟩ := exists_decodeWord_wordOfFields d p v
  obtain rfl : i = j := Option.some.inj (hi.symm.trans decoded)
  rw [direction, encoded]

/-- Settles O4: all rows have one mask, which leaves of a word its direction and port; each of the 32 pairs of these is
the match of one row. -/
theorem everyWordHasExactlyOneRow : Obligations.EveryWordHasExactlyOneRow := by
  have oneMatch : ∀ d p, (decodeRows.filter fun r => wordOfFields d p 0#8 == r.matchBits).length = 1 := by decide
  refine forall_word_iff.2 fun d p v => ?_
  have selected : decodeRows.filter (fun r => r.selects (wordOfFields d p v)) =
      decodeRows.filter fun r => wordOfFields d p 0#8 == r.matchBits :=
    List.filter_congr fun r hr => by rw [DecodeRow.selects, mask_of_mem_decodeRows r hr, wordOfFields_and_mask]
  rw [selected, oneMatch]

/-! ### Words as numbers -/

/-- Every number of 13 bits decodes, and bit 12 tells a write from a read (R61, R62). -/
theorem exists_decode_of_lt {word : Nat} (h : word < 0x2000) :
    ∃ i, decode word = .ok i ∧ i.isWrite = decide (0x1000 ≤ word) := by
  have word13 : (BitVec.ofNat 13 word).toNat = word := Nat.mod_eq_of_lt h
  obtain ⟨i, decoded, direction, -⟩ := exists_decodeWord_wordOfFields ((BitVec.ofNat 13 word).getLsbD 12)
    ((BitVec.ofNat 13 word).extractLsb' 8 4) (valueField (BitVec.ofNat 13 word))
  rw [wordOfFields_fields] at decoded
  refine ⟨i, word13 ▸ decode_toNat decoded, ?_⟩
  rw [direction, BitVec.getLsbD, word13, Nat.testBit_eq_decide_div_mod_eq, decide_eq_decide]
  omega

/-- R69, D10: a number of more than 13 bits is no word. -/
theorem decode_of_ge {word : Nat} (h : 0x2000 ≤ word) : decode word = .error .notATransactionWord := by
  have illFormed : ¬ wordWf word = true := by simp [wordWf, h]
  rw [decode, if_neg illFormed]

theorem toNat_ofNat_port {port : Nat} (h : port < 16) : (BitVec.ofNat 4 port).toNat = port := Nat.mod_eq_of_lt h

theorem toNat_ofNat_byte {value : Nat} (h : value < 256) : (BitVec.ofNat 8 value).toNat = value := Nat.mod_eq_of_lt h

/-- Settles O5: the write at the port, with the value, has the number as its word. -/
theorem writeWordFields : Obligations.WriteWordFields := by
  constructor
  · intro port value hp hv
    obtain ⟨i, isWrite, iport, ivalue⟩ := exists_write (BitVec.ofNat 4 port) (BitVec.ofNat 8 value)
    have portNat : i.port.toNat = port := iport ▸ toNat_ofNat_port hp
    have valueNat : i.value.toNat = value := ivalue ▸ toNat_ofNat_byte hv
    have decoded := decode_of_isWrite isWrite rfl rfl
    rw [portNat, valueNat] at decoded
    refine ⟨i, decoded, isWrite, portNat, valueNat, ?_⟩
    rw [encode, toNat_wordOfFields, isWrite, portNat, valueNat, Bool.toNat_true, Nat.one_mul]
  · intro word low high
    obtain ⟨i, decoded, direction⟩ := exists_decode_of_lt high
    exact ⟨i, decoded, direction.trans (decide_eq_true low)⟩

/-- Settles O6: the read at the port is decoded whatever the low byte, and is encoded with a low byte of 0. -/
theorem readWordFields : Obligations.ReadWordFields := by
  intro port low hp hlow
  obtain ⟨i, isRead, iport⟩ := exists_read (BitVec.ofNat 4 port)
  have portNat : i.port.toNat = port := iport ▸ toNat_ofNat_port hp
  have decoded := decode_of_isRead isRead rfl (BitVec.ofNat 8 low)
  rw [portNat, toNat_ofNat_byte hlow] at decoded
  refine ⟨i, decoded, isRead, portNat, ?_⟩
  rw [encode, toNat_wordOfFields, isRead, portNat, value_of_isRead isRead]
  simp

/-- Settles O7: each call is taken or refused by its range checks, each number by the decoder's. -/
theorem outOfContractIsRefused : Obligations.OutOfContractIsRefused := by
  refine ⟨fun port value wide => ?_, fun port value hp wide => ?_, fun port wide => ?_, fun port value hp hv => ?_,
    fun port hp => ?_, fun _ => decode_of_ge, fun _ h => (exists_decode_of_lt h).imp fun _ => And.left⟩
  · simp [wordOfWriteCall, portWf, wide]
  · simp [wordOfWriteCall, portWf, valueWf, hp, wide]
  · simp [wordOfReadCall, portWf, wide]
  · simp [wordOfWriteCall, portWf, valueWf, hp, hv]
  · simp [wordOfReadCall, portWf, hp]

/-- Settles O1: the words are those of the calls `write(port, value)` and `read(port)`, the second `read(0x8)` with a
low byte. -/
theorem writtenOutWordsDecode : Obligations.WrittenOutWordsDecode :=
  ⟨decode_of_isWrite (p := 0xC#4) (v := 0x28#8) rfl rfl rfl, decode_of_isWrite (p := 0xD#4) (v := 0xFF#8) rfl rfl rfl,
    decode_of_isWrite (p := 0x0#4) (v := 0x5F#8) rfl rfl rfl, decode_of_isWrite (p := 0x6#4) (v := 0x1E#8) rfl rfl rfl,
    decode_of_isWrite (p := 0xB#4) (v := 0x77#8) rfl rfl rfl, decode_of_isRead (p := 0x8#4) rfl rfl 0#8,
    decode_of_isRead (p := 0x8#4) rfl rfl 0xFF#8, decode_of_isRead (p := 0x9#4) rfl rfl 0#8,
    decode_of_isRead (p := 0xF#4) rfl rfl 0#8⟩

end Sys2Proof

/-! ## The timer's half of a step (R27 to R32, R130 to R142)

A step does one of four things to the timer: it leaves it alone, `hostInitialize` starts it, a due expiry runs, or time
passes up to the deadline. Every rule about the timer is proved of these four. -/

namespace Sys2Proof.Machine

/-! ### The same timer half -/

theorem SameTimer.trans {s t u : State} (h : SameTimer s t) (h' : SameTimer t u) : SameTimer s u :=
  ⟨h'.phase.trans h.phase, h'.blankTicks.trans h.blankTicks, h'.nonblankTicks.trans h.nonblankTicks,
    h'.armed.trans h.armed, h'.initialised.trans h.initialised, h'.now.trans h.now⟩

theorem SameTimer.ticksOf {s t : State} (h : SameTimer s t) (p : Phase) : t.ticksOf p = s.ticksOf p := by
  cases p
  · exact h.nonblankTicks
  · exact h.blankTicks

theorem SameTimer.deadline {s t : State} (h : SameTimer s t) : t.deadline = s.deadline := by
  rw [State.deadline, State.deadline, h.initialised, h.armed]

theorem SameTimer.timerInv {s t : State} (h : SameTimer s t) : t.timerInv = s.timerInv := by
  simp only [State.timerInv, h.initialised, h.armed, h.now, h.phase, h.ticksOf, h.blankTicks, h.nonblankTicks]

theorem SameTimer.onTimeline {s t : State} (h : SameTimer s t) {t0 k : Nat} (hs : s.OnTimeline t0 k) :
    t.OnTimeline t0 k where
  initialised := h.initialised.trans hs.initialised
  phase := h.phase.trans hs.phase
  armed := by rw [h.armed, h.nonblankTicks, h.blankTicks, hs.armed]
  past := by rw [h.now, h.nonblankTicks, h.blankTicks]; exact hs.past
  future := by rw [h.now, h.nonblankTicks, h.blankTicks]; exact hs.future

/-! ### The four effects -/

/-- What a step makes of the timer's half, with what stood first among the inputs. -/
inductive TimerEffect (s t : State) : Prop
  | keep (same : SameTimer s t)
  | start (freq : Nat) (rest : List Input) (input : s.inputs = .hostInitialize freq :: rest)
      (before : s.initialised = false) (ticks : 1 ≤ blankTicksOf freq) (same : SameTimer (s.startBlanking freq) t)
  | expire (initialised : s.initialised = true) (due : s.armed = some s.now) (same : SameTimer s.expire t)
  | pass (n : Nat) (input : s.inputs = [] ∨ ∃ n rest, s.inputs = .advance n :: rest)
      (before : ∀ d, s.initialised = true → s.armed = some d → n = 0 ∨ s.now + n ≤ d)
      (same : SameTimer (s.passTime n) t)

theorem step_timerEffect {s t : State} (h : step s = .next t) : TimerEffect s t := by
  cases step_effect h with
  | notify _ _ _ _ _ _ _ eq | store _ _ _ _ _ _ _ _ _ _ eq | reply _ _ _ _ _ _ eq | clear _ _ eq =>
    subst eq
    exact .keep ⟨rfl, rfl, rfl, rfl, rfl, rfl⟩
  | start freq rest input before ticks eq =>
    subst eq
    exact .start freq rest input before ticks ⟨rfl, rfl, rfl, rfl, rfl, rfl⟩
  | expire rest input due eq =>
    subst eq
    obtain ⟨initialised, armed⟩ := State.expiryDue_iff.1 due
    exact .expire initialised armed ⟨rfl, rfl, rfl, rfl, rfl, rfl⟩
  | pass n rest input before eq =>
    subst eq
    exact .pass n input (fun d hi ha => before d (State.deadline_eq_some.2 ⟨hi, ha⟩)) ⟨rfl, rfl, rfl, rfl, rfl, rfl⟩

/-! ### The timer's invariant -/

/-- `B >= 1` makes `N >= 12`, since `N` is about twelve and a half times as long (R131, R136). -/
theorem nonblankTicksOf_ge {freq : Nat} (h : 1 ≤ blankTicksOf freq) : 12 ≤ nonblankTicksOf freq := by
  unfold blankTicksOf Config.blankTenths Config.tenthsPerSecond at h
  unfold nonblankTicksOf Config.nonblankTenths Config.tenthsPerSecond
  omega

theorem State.timerInv_of_initialised {s : State} (hi : s.initialised = true) :
    s.timerInv = true ↔ ∃ d, s.armed = some d ∧ s.now ≤ d ∧ d - s.now ≤ s.ticksOf s.phase ∧
      1 ≤ s.blankTicks ∧ 12 ≤ s.nonblankTicks := by
  simp [State.timerInv_iff, hi]

theorem State.timerInv_startBlanking (s : State) {freq : Nat} (h : 1 ≤ blankTicksOf freq) :
    (s.startBlanking freq).timerInv = true := by
  refine (State.timerInv_of_initialised rfl).2 ⟨s.now + nonblankTicksOf freq, rfl, ?_, ?_, h, nonblankTicksOf_ge h⟩
  · exact Nat.le_add_right ..
  · exact Nat.le_of_eq (Nat.add_sub_cancel_left ..)

theorem State.timerInv_expire {s : State} (h : s.timerInv = true) (hi : s.initialised = true) :
    s.expire.timerInv = true := by
  obtain ⟨-, -, -, -, blank, nonblank⟩ := (State.timerInv_of_initialised hi).1 h
  refine (State.timerInv_of_initialised (s := s.expire) hi).2
    ⟨s.now + s.ticksOf s.phase.toggle, rfl, ?_, ?_, blank, nonblank⟩
  · exact Nat.le_add_right ..
  · exact Nat.le_of_eq (Nat.add_sub_cancel_left ..)

theorem State.timerInv_passTime {s : State} {n : Nat} (h : s.timerInv = true)
    (before : ∀ d, s.initialised = true → s.armed = some d → n = 0 ∨ s.now + n ≤ d) :
    (s.passTime n).timerInv = true := by
  rcases State.timerInv_iff.1 h with unarmed | ⟨hi, d, armed, notPast, inPhase, ticks⟩
  · exact State.timerInv_iff.2 (.inl unarmed)
  · have notPassed : s.now + n ≤ d := by have := before d hi armed; omega
    have stillInPhase : d - (s.now + n) ≤ s.ticksOf s.phase := by omega
    exact (State.timerInv_of_initialised (s := s.passTime n) hi).2 ⟨d, armed, notPassed, stillInPhase, ticks⟩

/-- Settles O47: the timer left alone, its first arming by `hostInitialize`, the re-arming of an expiry and time passing
up to the deadline keep the invariant, each by its own lemma. -/
theorem everyStepKeepsTheTimerInvariant : Obligations.EveryStepKeepsTheTimerInvariant := by
  intro s t hs h
  cases step_timerEffect h with
  | keep same => exact same.timerInv.trans hs
  | start freq _ _ _ ticks same => exact same.timerInv.trans (s.timerInv_startBlanking ticks)
  | expire initialised _ same => exact same.timerInv.trans (State.timerInv_expire hs initialised)
  | pass n _ before same => exact same.timerInv.trans (State.timerInv_passTime hs before)

/-! ### The timeline of R136 -/

@[simp] theorem phaseAfter_even (m : Nat) : phaseAfter (2 * m) = .nonblank := if_neg (by omega)

@[simp] theorem phaseAfter_odd (m : Nat) : phaseAfter (2 * m + 1) = .blank := if_pos (by omega)

/-- An even expiry ends the `m`-th period of `N + B` units. -/
theorem expiryTime_even (t0 n b m : Nat) : expiryTime t0 n b (2 * m) = t0 + (n + b) * m := by
  have halves : (2 * m + 1) / 2 = m ∧ 2 * m / 2 = m := by omega
  rw [expiryTime, halves.1, halves.2]
  ring

/-- An odd expiry ends the NONBLANK phase of the period that follows. -/
theorem expiryTime_odd (t0 n b m : Nat) : expiryTime t0 n b (2 * m + 1) = t0 + (n + b) * m + n := by
  have halves : (2 * m + 1 + 1) / 2 = m + 1 ∧ (2 * m + 1) / 2 = m := by omega
  rw [expiryTime, halves.1, halves.2]
  ring

theorem toggle_phaseAfter (k : Nat) : (phaseAfter k).toggle = phaseAfter (k + 1) := by
  obtain ⟨m, rfl | rfl⟩ := Nat.even_or_odd' k
  · rw [phaseAfter_even, phaseAfter_odd]
    rfl
  · have next : 2 * m + 1 + 1 = 2 * (m + 1) := rfl
    rw [phaseAfter_odd, next, phaseAfter_even]
    rfl

/-- Between two expiries lies the phase of the first. -/
theorem expiryTime_succ (s : State) (t0 k : Nat) :
    expiryTime t0 s.nonblankTicks s.blankTicks (k + 1) =
      expiryTime t0 s.nonblankTicks s.blankTicks k + s.ticksOf (phaseAfter k) := by
  obtain ⟨m, rfl | rfl⟩ := Nat.even_or_odd' k
  · rw [expiryTime_odd, expiryTime_even, phaseAfter_even, State.ticksOf]
  · have next : 2 * m + 1 + 1 = 2 * (m + 1) := rfl
    rw [next, expiryTime_even, expiryTime_odd, phaseAfter_odd, State.ticksOf]
    ring

theorem State.OnTimeline.startBlanking (s : State) (freq : Nat) : (s.startBlanking freq).OnTimeline s.now 0 where
  initialised := rfl
  phase := rfl
  armed := by simp [expiryTime]
  past := by simp [expiryTime]
  future := by simp [expiryTime]

theorem State.OnTimeline.passTime {s : State} {t0 k n : Nat} (h : s.OnTimeline t0 k)
    (before : ∀ d, s.initialised = true → s.armed = some d → n = 0 ∨ s.now + n ≤ d) :
    (s.passTime n).OnTimeline t0 k where
  initialised := h.initialised
  phase := h.phase
  armed := h.armed
  past := Nat.le_add_right_of_le h.past
  future := by
    rcases before _ h.initialised h.armed with rfl | notPassed
    · exact h.future
    · exact notPassed

/-- The expiry of number `k + 1` happens at its time of R136 and arms the timer for number `k + 2`. -/
theorem State.OnTimeline.expire {s : State} {t0 k : Nat} (h : s.OnTimeline t0 k) (due : s.armed = some s.now) :
    s.expire.OnTimeline t0 (k + 1) := by
  have now : s.now = expiryTime t0 s.nonblankTicks s.blankTicks (k + 1) := Option.some.inj (due.symm.trans h.armed)
  have next : s.now + s.ticksOf s.phase.toggle = expiryTime t0 s.nonblankTicks s.blankTicks (k + 1 + 1) := by
    rw [expiryTime_succ, ← now, h.phase, toggle_phaseAfter]
  exact {
    initialised := h.initialised
    phase := by rw [State.expire_phase, h.phase, toggle_phaseAfter]
    armed := congrArg some next
    past := Nat.le_of_eq now.symm
    future := next ▸ Nat.le_add_right s.now _ }

/-- Settles O40: an expiry is the transition of number `k + 1`; every other step stays between two transitions. -/
theorem everyStepKeepsTheTimeline : Obligations.EveryStepKeepsTheTimeline := by
  intro s t t0 k _ line h
  cases step_timerEffect h with
  | keep same => exact .inl (same.onTimeline line)
  | start _ _ _ before _ _ => exact absurd (before.symm.trans line.initialised) Bool.false_ne_true
  | expire initialised due same =>
    exact .inr ⟨State.expiryDue_iff.2 ⟨initialised, due⟩, same.phase, same.onTimeline (line.expire due)⟩
  | pass n _ before same => exact .inl (same.onTimeline (line.passTime before))

end Sys2Proof.Machine

/-! ## The rules read off the four effects on the timer (R27, R28, R30, R135, R136) -/

namespace Sys2Proof.Machine

/-- Settles O37: the one effect that moves the clock is time passing, which stops at the deadline; the invariant says
that the clock has not passed the deadline before. -/
theorem clockNeverPassesADeadline : Obligations.ClockNeverPassesADeadline := by
  intro s t hs h
  have notPast : ∀ d, s.initialised = true → s.armed = some d → s.now ≤ d := by
    intro d initialised armed
    obtain ⟨d', armed', notPast, -⟩ := (State.timerInv_of_initialised initialised).1 hs
    obtain rfl : d = d' := Option.some.inj (armed.symm.trans armed')
    exact notPast
  have stays (now : t.now = s.now) : s.now ≤ t.now ∧ (∀ d, s.initialised = true → s.armed = some d → t.now ≤ d) ∧
      (t.now ≠ s.now → s.inputs = [] ∨ ∃ n rest, s.inputs = .advance n :: rest) :=
    ⟨now.symm.le, fun d initialised armed => now.trans_le (notPast d initialised armed), fun moved => absurd now moved⟩
  cases step_timerEffect h with
  | keep same => exact stays same.now
  | start _ _ _ _ _ same => exact stays same.now
  | expire _ _ same => exact stays same.now
  | pass n input before same =>
    have now : t.now = s.now + n := same.now
    refine ⟨by omega, fun d initialised armed => ?_, fun _ => input⟩
    rcases before d initialised armed with rfl | inTime
    · exact now.trans_le (notPast d initialised armed)
    · exact now.trans_le inTime

/-- Settles O52: `hostInitialize` and an expiry are the only effects with another phase. -/
theorem onlyInitializeAndExpiryChangeThePhase : Obligations.OnlyInitializeAndExpiryChangeThePhase := by
  intro s t h changed
  cases step_timerEffect h with
  | keep same => exact absurd same.phase changed
  | start freq rest input before _ same => exact .inl ⟨before, same.phase, freq, rest, input⟩
  | expire initialised due same => exact .inr ⟨State.expiryDue_iff.2 ⟨initialised, due⟩, same.phase⟩
  | pass _ _ _ same => exact absurd same.phase changed

/-- Settles O53: `hostInitialize` is the only effect on `initialised` and the durations, and it runs before the state is
initialised or not at all. -/
theorem durationsAreSetOnce : Obligations.DurationsAreSetOnce := by
  intro s t h
  have kept (initialised : t.initialised = s.initialised) (blank : t.blankTicks = s.blankTicks)
      (nonblank : t.nonblankTicks = s.nonblankTicks) :
      (s.initialised = true → t.initialised = true ∧ t.blankTicks = s.blankTicks ∧ t.nonblankTicks = s.nonblankTicks) ∧
      (s.initialised = false → t.initialised = true → ∃ freq rest, s.inputs = .hostInitialize freq :: rest) :=
    ⟨fun hi => ⟨initialised.trans hi, blank, nonblank⟩,
      fun hi hi' => absurd (hi.symm.trans (initialised.symm.trans hi')) Bool.false_ne_true⟩
  cases step_timerEffect h with
  | keep same => exact kept same.initialised same.blankTicks same.nonblankTicks
  | start freq rest input before _ _ =>
    exact ⟨fun hi => absurd (before.symm.trans hi) Bool.false_ne_true, fun _ _ => ⟨freq, rest, input⟩⟩
  | expire _ _ same => exact kept same.initialised same.blankTicks same.nonblankTicks
  | pass _ _ _ same => exact kept same.initialised same.blankTicks same.nonblankTicks

/-! ### The closed form of the phase -/

/-- On the timeline the clock is `x` units into a period that began `m` periods after `T0`: in its NONBLANK phase up to
`N`, in its BLANK phase from `N` on, either one at a transition. -/
theorem State.OnTimeline.exists_period {s : State} {t0 k : Nat} (h : s.OnTimeline t0 k) :
    ∃ m x, s.now - t0 = x + (s.nonblankTicks + s.blankTicks) * m ∧ t0 ≤ s.now ∧
      (s.phase = .nonblank ∧ x ≤ s.nonblankTicks ∨
        s.phase = .blank ∧ s.nonblankTicks ≤ x ∧ x ≤ s.nonblankTicks + s.blankTicks) := by
  have past := h.past
  have future := h.future
  obtain ⟨m, rfl | rfl⟩ := Nat.even_or_odd' k
  · rw [expiryTime_even] at past
    rw [expiryTime_odd] at future
    exact ⟨m, s.now - t0 - (s.nonblankTicks + s.blankTicks) * m, by omega, by omega,
      .inl ⟨h.phase.trans (phaseAfter_even m), by omega⟩⟩
  · rw [expiryTime_odd] at past
    have next : 2 * m + 1 + 1 = 2 * (m + 1) := rfl
    rw [next, expiryTime_even, Nat.mul_succ] at future
    exact ⟨m, s.now - t0 - (s.nonblankTicks + s.blankTicks) * m, by omega, by omega,
      .inr ⟨h.phase.trans (phaseAfter_odd m), by omega, by omega⟩⟩

/-- Settles O42: `d` is the time into the period, but for a BLANK phase at its end, where `d` is 0. -/
theorem phaseIsTheClosedForm : Obligations.PhaseIsTheClosedForm := by
  intro s t0 k hs line d
  obtain ⟨-, -, -, -, blank, nonblank⟩ := (State.timerInv_of_initialised line.initialised).1 hs
  obtain ⟨m, x, now, started, ⟨phase, short⟩ | ⟨phase, low, high⟩⟩ := line.exists_period
  · have hd : d = x := by
      show (s.now - t0) % _ = x
      rw [now, Nat.add_mul_mod_self_left, Nat.mod_eq_of_lt (by omega)]
    exact ⟨fun _ => phase, fun _ _ => phase, fun long => absurd long (by omega)⟩
  · have notStart : s.now ≠ t0 := by omega
    have hd : d = x ∨ d = 0 := by
      show (s.now - t0) % _ = x ∨ (s.now - t0) % _ = 0
      rw [now, Nat.add_mul_mod_self_left]
      rcases Nat.lt_or_eq_of_le high with inside | atEnd
      · exact .inl (Nat.mod_eq_of_lt inside)
      · exact .inr (by rw [atEnd, Nat.mod_self])
    exact ⟨fun start => absurd start notStart, fun pos inNonblank => absurd inNonblank (by omega), fun _ => phase⟩

/-! ### `hostInitialize` (R121, R131) -/

theorem blankTicksOf_eq_zero_iff {freq : Nat} : blankTicksOf freq = 0 ↔ freq < 212766 := by
  unfold blankTicksOf Config.blankTenths Config.tenthsPerSecond
  omega

theorem nonblankTicksOf_eq_zero_iff {freq : Nat} : nonblankTicksOf freq = 0 ↔ freq < 17007 := by
  unfold nonblankTicksOf Config.nonblankTenths Config.tenthsPerSecond
  omega

theorem blankTicksOf_pos {freq : Nat} (h : 212766 ≤ freq) : 1 ≤ blankTicksOf freq :=
  Nat.pos_of_ne_zero fun zero => absurd (blankTicksOf_eq_zero_iff.1 zero) (Nat.not_lt.2 h)

theorem hostInitialize_of_initialised {freq : Nat} {s : State} (hi : s.initialised = true) :
    hostInitialize freq s = .refused .secondInitialize := by
  rw [hostInitialize, if_pos hi]

theorem hostInitialize_of_low {freq : Nat} {s : State} (hi : s.initialised = false) (hf : freq < 212766) :
    hostInitialize freq s = .refused .zeroDuration := by
  rw [hostInitialize, if_neg (by simp [hi]), if_pos (blankTicksOf_eq_zero_iff.2 hf)]

theorem step_hostInitialize {s : State} {freq : Nat} {rest : List Input}
    (input : s.inputs = .hostInitialize freq :: rest) (hi : s.initialised = false) (hf : 212766 ≤ freq) :
    step s = .next (({ s with inputs := rest } : State).startBlanking freq) :=
  (step_of_input input).trans (hostInitialize_of_contract hi hf)

/-- Settles O27: R121's state, its durations the two floors. -/
theorem hostInitializeStartsInNonblank : Obligations.HostInitializeStartsInNonblank :=
  fun _ _ _ input hi hf => step_hostInitialize input hi hf

/-- Settles O28: the two checks of R121 in its order, and where the two floors reach 1 and 12. -/
theorem hostInitializeRefusals : Obligations.HostInitializeRefusals :=
  fun _ _ _ input =>
    ⟨fun hi => (step_of_input input).trans (hostInitialize_of_initialised hi),
      fun hi hf => (step_of_input input).trans (hostInitialize_of_low hi hf),
      blankTicksOf_eq_zero_iff, nonblankTicksOf_eq_zero_iff, fun hf => nonblankTicksOf_ge (blankTicksOf_pos hf)⟩

/-- Settles O29: floors of sums, for every frequency; then the spec's table. -/
theorem durationsAreFlooredSeparately : Obligations.DurationsAreFlooredSeparately := by
  refine ⟨fun freq => ⟨rfl, rfl, ?_⟩, by decide⟩
  unfold nonblankTicksOf blankTicksOf Config.nonblankTenths Config.blankTenths Config.tenthsPerSecond
  omega

/-- Settles O41: the state `hostInitialize` makes is the timeline's first. -/
theorem hostInitializeStartsTheTimeline : Obligations.HostInitializeStartsTheTimeline :=
  fun _ _ _ input hi hf =>
    ⟨_, step_hostInitialize input hi hf, .startBlanking _ _, State.timerInv_startBlanking _ (blankTicksOf_pos hf)⟩

end Sys2Proof.Machine

/-! ## The bank's half of a step (R21, R25, R37, R39) -/

namespace Sys2Proof.Machine

/-- What a step makes of the bank: nothing, or `reset()` clears it, or a bus write stores to its one cell. -/
theorem step_cells {s t : State} (h : step s = .next t) :
    t.cells = s.cells ∨
    (∃ rest, s.inputs = .hostReset :: rest ∧ t.cells = s.clearCells.cells) ∨
    (∃ i c v, s.nextInstr = some i ∧ i.isWrite = true ∧ destCells i = [c] ∧
      (c = 0x6 ∨ c = 0x8 ∧ v.toNat ≤ 0x3F ∨ c = 0x9) ∧ t.cells = (s.setCell c v).cells) := by
  cases step_effect h with
  | notify _ _ _ _ _ _ _ eq | reply _ _ _ _ _ _ eq | start _ _ _ _ _ eq | expire _ _ _ eq | pass _ _ _ _ eq =>
    subst eq
    exact .inl rfl
  | clear rest input eq =>
    subst eq
    exact .inr (.inl ⟨rest, input, rfl⟩)
  | store i _ _ c v input decoded write dest cell eq =>
    subst eq
    exact .inr (.inr ⟨i, c, v, nextInstr_of_decode input decoded, write, dest, cell, rfl⟩)

/-- Settles O46: of the three effects on the bank, the store meets the bound of its cell. -/
theorem everyStepKeepsTheBankInvariant : Obligations.EveryStepKeepsTheBankInvariant := by
  intro s t hs h
  rcases step_cells h with kept | ⟨-, -, cleared⟩ | ⟨-, c, v, -, -, -, cell, stored⟩
  · exact (State.bankInv_congr kept).trans hs
  · exact (State.bankInv_congr cleared).trans s.bankInv_clearCells
  · exact (State.bankInv_congr stored).trans (State.bankInv_setCell hs cell)

/-- Settles O48: the reset state is the cleared bank with nothing armed. -/
theorem resetStateMeetsTheInvariants : Obligations.ResetStateMeetsTheInvariants :=
  ⟨State.powerOn.bankInv_clearCells, State.timerInv_iff.2 (.inl ⟨rfl, rfl⟩), State.timerInv_iff.2 (.inl ⟨rfl, rfl⟩)⟩

theorem State.cell_of_cells {s t : State} (h : t.cells = s.cells) (c : Fin 16) : t.cell c = s.cell c := by
  rw [State.cell, State.cell, h]

/-- Settles O50: a store changes its own cell alone. -/
theorem onlyWritesAndResetChangeACell : Obligations.OnlyWritesAndResetChangeACell := by
  intro s t c h changed
  rcases step_cells h with kept | ⟨rest, input, -⟩ | ⟨i, c', v, next, write, dest, -, stored⟩
  · exact absurd (State.cell_of_cells kept c) changed
  · exact .inl ⟨rest, input⟩
  · refine .inr ⟨i, next, write, ?_⟩
    by_contra other
    have apart : c' ≠ c := fun same => other (dest ▸ List.mem_singleton.2 same.symm)
    rw [State.cell_of_cells stored, State.cell_setCell, if_neg apart] at changed
    exact changed rfl

/-! ### The scroll offset -/

/-- A step whose next operation is a bus word that decodes runs its instruction. -/
theorem step_of_nextInstr {s : State} {i : Instr} (h : s.nextInstr = some i) :
    ∃ rest, step s = exec i { s with inputs := rest } := by
  unfold State.nextInstr at h
  split at h
  next word rest input =>
    cases decoded : decode word with
    | ok j =>
      obtain rfl : j = i := by simpa [decoded, Except.toOption] using h
      exact ⟨rest, (step_of_input input).trans (runBusWord_of_decode decoded _)⟩
    | error e => simp [decoded, Except.toOption] at h
  next => cases h

theorem scrollOffset_mem_destCells {i : Instr} (h : 0x6 ∈ destCells i) :
    (∃ v, i = .ldlastrow v) ∨ ∃ v, i = .scrollup v := by
  cases i with
  | ldlastrow v => exact .inl ⟨v, rfl⟩
  | scrollup v => exact .inr ⟨v, rfl⟩
  | ldcurx _ | ldcury _ => simp [destCells] at h
  | _ => cases h

theorem scrollOffset_lt_of_scrollup {s t : State} {v : Byte} (next : s.nextInstr = some (.scrollup v))
    (h : step s = .next t) : (t.cell 0x6).toNat < 32 := by
  obtain ⟨rest, hs⟩ := step_of_nextInstr next
  cases (hs.symm.trans h : Host.Outcome.next _ = _)
  exact (State.toNat_cell_scrolledBy _ 1).trans_lt (Nat.mod_lt _ (by decide))

theorem scrollOffset_of_ldlastrow {s t : State} {v : Byte} (next : s.nextInstr = some (.ldlastrow v))
    (h : step s = .next t) : t.cell 0x6 = v := by
  obtain ⟨rest, hs⟩ := step_of_nextInstr next
  cases (hs.symm.trans h : Host.Outcome.next _ = _)
  exact State.cell_setCell_markDirty _ 0x6 v

/-- Settles O49: a step that changes the offset is `reset()`, a load or a scroll-up, and only the load can make it 32 or
more. -/
theorem scrollOffsetLeavesItsRangeOnlyByALoad : Obligations.ScrollOffsetLeavesItsRangeOnlyByALoad := by
  intro s t h
  refine ⟨fun inRange => ?_, fun v next => scrollOffset_lt_of_scrollup next h, fun v next small => ?_⟩
  · by_cases kept : t.cell 0x6 = s.cell 0x6
    · exact .inl (kept ▸ inRange)
    rcases onlyWritesAndResetChangeACell s t 0x6 h kept with ⟨rest, input⟩ | ⟨i, next, -, dest⟩
    · cases (step_hostReset input).symm.trans h
      exact .inl (by rw [State.cell_clearCells]; decide)
    · rcases scrollOffset_mem_destCells dest with ⟨v, rfl⟩ | ⟨v, rfl⟩
      · have loaded := scrollOffset_of_ldlastrow next h
        rcases Nat.lt_or_ge v.toNat 32 with small | large
        · exact .inl (loaded ▸ small)
        · exact .inr ⟨v, next, large⟩
      · exact .inl (scrollOffset_lt_of_scrollup next h)
  · exact scrollOffset_of_ldlastrow next h ▸ small

end Sys2Proof.Machine

/-! ## What a bus transaction leaves unchanged, and in what order two of them can run (R39, R80, R97) -/

namespace Sys2Proof.Machine

/-- Settles O8: the dispatch of the step, then the decoder's answer. -/
theorem stepRunsTheDecodedInstruction : Obligations.StepRunsTheDecodedInstruction :=
  fun _ _ _ _ input decoded => (step_of_input input).trans (runBusWord_of_decode decoded _)

theorem runBusWord_of_error {word : Nat} {e : DecodeError} (h : decode word = .error e) (s : State) :
    runBusWord word s = .refused .notATransactionWord := by
  rw [runBusWord, h]

/-- Settles O9: a number of more than 13 bits is turned away by the decoder. -/
theorem stepRefusesAWordThatIsNoTransaction : Obligations.StepRefusesAWordThatIsNoTransaction :=
  fun _ _ _ input wide => (step_of_input input).trans (runBusWord_of_error (decode_of_ge wide) _)

/-- Settles O10: the 13-bit word fits in the 16 bits fetched, and it decodes to the instruction. -/
theorem placedWordRunsAsItsInstruction : Obligations.PlacedWordRunsAsItsInstruction := by
  intro i s
  have fits : (encode i).toNat % 2 ^ 16 = (encode i).toNat := by
    have := (encode i).isLt
    omega
  rw [State.withFetchWord, fits]
  exact (step_cons s _ s.inputs).trans (runBusWord_of_decode (decodeOfEncodeIsTheInstruction i) s)

/-! ### The frame of a transaction -/

/-- Settles O22: in each of the three cases of a transaction everything is unchanged but the one cell stored, the count
or the answers. -/
theorem transactionFrame : Obligations.TransactionFrame := by
  intro i s t h
  rcases exec_cases i s with ⟨write, dest, run⟩ | ⟨c, v, write, dest, -, run⟩ | ⟨b, read, dest, run⟩ <;>
    cases run.symm.trans h
  · exact ⟨fun _ _ => rfl, ⟨rfl, rfl, rfl, rfl, rfl, rfl⟩, rfl, fun _ => ⟨rfl, rfl⟩,
      fun read => absurd (read.symm.trans write) Bool.false_ne_true⟩
  · refine ⟨fun c' outside => ?_, ⟨rfl, rfl, rfl, rfl, rfl, rfl⟩, rfl, fun _ => ⟨rfl, rfl⟩,
      fun read => absurd (read.symm.trans write) Bool.false_ne_true⟩
    have apart : c ≠ c' := fun same => outside (dest ▸ List.mem_singleton.2 same.symm)
    rw [State.cell_markDirty, State.cell_setCell, if_neg apart]
  · exact ⟨fun _ _ => rfl, ⟨rfl, rfl, rfl, rfl, rfl, rfl⟩, rfl,
      fun write => absurd (read.symm.trans write) Bool.false_ne_true, fun _ => ⟨rfl, rfl, b, rfl⟩⟩

/-- Settles O17, by induction on the list: the first write completes and notifies once, and the others go on from
there. -/
theorem everyWriteNotifiesOnce : Obligations.EveryWriteNotifiesOnce := by
  intro is
  induction is with
  | nil => exact fun s _ => ⟨s, rfl, rfl, ⟨rfl, rfl, rfl, rfl, rfl, rfl⟩, rfl⟩
  | cons i is ih =>
    intro s writes
    obtain ⟨write, writes⟩ := List.forall_mem_cons.1 writes
    have run := exec_of_isWrite write s
    obtain ⟨-, timer, -, frame, -⟩ := transactionFrame i s _ run
    obtain ⟨dirty, answers⟩ := frame write
    obtain ⟨t, runs, dirty', timer', answers'⟩ := ih (memWrite i.port i.value s) writes
    refine ⟨t, ?_, ?_, timer.trans timer', answers'.trans answers⟩
    · simp only [execAll, run, runs]
    · rw [dirty', dirty, List.length_cons]
      omega

/-! ### Two writes in either order -/

/-- What a write does as a function of the state: it stores nothing, or to its one cell a byte that depends on the
contents of this cell alone. -/
theorem exec_eq_of_isWrite {i : Instr} (hw : i.isWrite = true) :
    (destCells i = [] ∧ ∀ s, exec i s = .next s.markDirty) ∨
    ∃ (c : Fin 16) (f : Byte → Byte), destCells i = [c] ∧
      ∀ s, exec i s = .next (s.setCell c (f (s.cell c))).markDirty := by
  cases i with
  | ldlastrow v => exact .inr ⟨0x6, fun _ => v, rfl, fun _ => rfl⟩
  | scrollup _ => exact .inr ⟨0x6, fun offset => BitVec.ofNat 8 (rowAfter offset), rfl, fun _ => rfl⟩
  | ldcurx v => exact .inr ⟨0x9, fun _ => v, rfl, fun _ => rfl⟩
  | ldcury v => exact .inr ⟨0x8, fun _ => lowSixBits v, rfl, fun _ => rfl⟩
  | ldctl0 _ | ldctl1 _ | ldctl2 _ | ldctl3 _ | ldctl4 _ | ldctl5 _ | procload _ | wnull8 _ | wnull9 _ | rstcnt _
  | starttim _ | selfload _ => exact .inl ⟨rfl, fun _ => rfl⟩
  | _ => cases hw

/-- Settles O16: stores to different cells read and write nothing in common; a load of 0 followed by a scroll-up leaves
1 in the cell, and in the other order 0. -/
theorem writesToDifferentCellsCommute : Obligations.WritesToDifferentCellsCommute := by
  constructor
  · intro i j s iWrite jWrite disjoint
    rcases exec_eq_of_isWrite iWrite with ⟨-, iRun⟩ | ⟨c, f, iDest, iRun⟩ <;>
      rcases exec_eq_of_isWrite jWrite with ⟨-, jRun⟩ | ⟨d, g, jDest, jRun⟩
    · simp only [execAll, iRun, jRun]
    · simp only [execAll, iRun, jRun]
      rfl
    · simp only [execAll, iRun, jRun]
      rfl
    · have apart : c ≠ d := by simpa [iDest, jDest] using disjoint
      have stores : ((s.setCell c (f (s.cell c))).setCell d (g (s.cell d))).markDirty.markDirty =
          ((s.setCell d (g (s.cell d))).setCell c (f (s.cell c))).markDirty.markDirty := by
        rw [State.setCell_comm s c d _ _ apart]
      simp only [execAll, iRun, jRun, State.cell_markDirty, State.cell_setCell, if_neg apart, if_neg apart.symm]
      exact congrArg Host.Outcome.next stores
  · refine ⟨0#8, 0#8, State.reset, fun same => ?_⟩
    have offsets := congrArg (fun r => (nextState r).map fun t => t.cell 0x6) same
    revert offsets
    decide

end Sys2Proof.Machine

/-! ## The accessors, the expiry and time passing, by the position of the deadline (R122 to R125, R133, R135, R155) -/

namespace Sys2Proof.Machine

/-! ### Where the deadline stands -/

theorem State.deadline_eq_none_of_uninitialised {s : State} (hi : s.initialised = false) : s.deadline = none := by
  simp [State.deadline, hi]

theorem State.deadline_of_armed {s : State} {d : Nat} (hi : s.initialised = true) (armed : s.armed = some d) :
    s.deadline = some d :=
  State.deadline_eq_some.2 ⟨hi, armed⟩

/-- Under the timer's invariant nothing is armed, or an expiry is due, or its deadline is ahead. -/
theorem State.deadline_cases_of_timerInv {s : State} (hs : s.timerInv = true) :
    s.deadline = none ∨ s.deadline = some s.now ∨ ∃ d, s.deadline = some d ∧ s.now < d := by
  cases hi : s.initialised with
  | false => exact .inl (State.deadline_eq_none_of_uninitialised hi)
  | true =>
    obtain ⟨d, armed, notPast, -⟩ := (State.timerInv_of_initialised hi).1 hs
    rcases Nat.lt_or_eq_of_le notPast with ahead | rfl
    · exact .inr (.inr ⟨d, State.deadline_of_armed hi armed, ahead⟩)
    · exact .inr (.inl (State.deadline_of_armed hi armed))

/-! ### Letting time pass, and the block on its own -/

/-- Before `hostInitialize` nothing stops the clock (R139). -/
theorem advanceTime_of_waiting {s : State} (h : s.deadline = none) (n : Nat) :
    advanceTime n s = .next (s.passTime n) := by
  cases n with
  | zero => rfl
  | succ n => simp [advanceTime, h]

/-- A due expiry runs first, and the request stays where it is (R135 (a)). -/
theorem advanceTime_of_due {s : State} (h : s.deadline = some s.now) (n : Nat) :
    advanceTime (n + 1) s = .next (s.expire.pushInput (.advance (n + 1))) := by
  simp [advanceTime, h]

/-- Time stops at a deadline on the way, and what is left is the next request (R135 (a)). -/
theorem advanceTime_of_ahead {s : State} {d : Nat} (h : s.deadline = some d) (ahead : s.now < d) (n : Nat) :
    advanceTime n s =
      if s.now + n ≤ d then .next (s.passTime n)
      else .next ((s.passTime (d - s.now)).pushInput (.advance (s.now + n - d))) := by
  cases n with
  | zero => exact (if_pos ahead.le).symm
  | succ n => simp only [advanceTime, h, if_neg (Nat.not_lt.2 ahead.le), if_neg ahead.ne']

theorem idle_of_waiting {s : State} (h : s.deadline = none) : idle s = .next s := by
  simp only [idle, h]

theorem idle_of_due {s : State} (h : s.deadline = some s.now) : idle s = .next s.expire := by
  simp [idle, h]

theorem idle_of_ahead {s : State} {d : Nat} (h : s.deadline = some d) (ahead : s.now < d) :
    idle s = .next (s.passTime (d - s.now)) := by
  simp only [idle, h, if_neg (Nat.not_lt.2 ahead.le), if_neg ahead.ne']

theorem deliverExpiry_of_not_due {s : State} (h : s.expiryDue = false) :
    deliverExpiry s = .refused .expiryNotDue := by
  rw [deliverExpiry, if_neg (Bool.eq_false_iff.1 h)]

theorem readIsBlanking_of_uninitialised {s : State} (hi : s.initialised = false) :
    readIsBlanking s = .refused .blankingReadBeforeInitialize := by
  simp [readIsBlanking, State.isBlanking, hi]

theorem step_isBlanking {s : State} {rest : List Input} (input : s.inputs = .isBlanking :: rest)
    (hi : s.initialised = true) :
    step s = .next (({ s with inputs := rest } : State).answer (.isBlanking s.phase.isBlank)) :=
  (step_of_input input).trans (readIsBlanking_of_initialised hi)

theorem step_expiry {s : State} {rest : List Input} (input : s.inputs = .expiry :: rest) (hi : s.initialised = true)
    (due : s.armed = some s.now) : step s = .next ({ s with inputs := rest } : State).expire :=
  (step_of_input input).trans (deliverExpiry_of_due hi due)

/-- A step that lets time pass before `hostInitialize`. -/
theorem step_advance_of_uninitialised {s : State} {n : Nat} {rest : List Input} (input : s.inputs = .advance n :: rest)
    (hi : s.initialised = false) : step s = .next (({ s with inputs := rest } : State).passTime n) :=
  (step_of_input input).trans
    (advanceTime_of_waiting (s := { s with inputs := rest }) (State.deadline_eq_none_of_uninitialised hi) n)

/-- A step that would let time pass with an expiry due: the request stays the next operation. -/
theorem step_advance_of_due {s : State} {n : Nat} {rest : List Input} (input : s.inputs = .advance (n + 1) :: rest)
    (hi : s.initialised = true) (due : s.armed = some s.now) : step s = .next s.expire := by
  have stays : (({ s with inputs := rest } : State).expire).pushInput (.advance (n + 1)) = s.expire := by
    simp only [State.pushInput, State.expire, State.arm, ← input]
    rfl
  rw [← stays]
  exact (step_of_input input).trans
    (advanceTime_of_due (s := { s with inputs := rest }) (State.deadline_of_armed hi due) n)

/-- A step that lets time pass with the deadline ahead. -/
theorem step_advance_of_ahead {s : State} {n d : Nat} {rest : List Input} (input : s.inputs = .advance n :: rest)
    (hi : s.initialised = true) (armed : s.armed = some d) (ahead : s.now < d) :
    step s = if s.now + n ≤ d then .next { s with inputs := rest, now := s.now + n }
      else .next { s with inputs := .advance (s.now + n - d) :: rest, now := d } := by
  have atDeadline : s.now + (d - s.now) = d := Nat.add_sub_of_le ahead.le
  rw [step_of_input input, perform,
    advanceTime_of_ahead (s := { s with inputs := rest }) (State.deadline_of_armed hi armed) ahead]
  simp only [State.passTime, State.pushInput, atDeadline]

/-! ### The obligations -/

/-- Settles O33: a due expiry completes, and the two phases are each other's toggle. -/
theorem expiryTogglesAndRearms : Obligations.ExpiryTogglesAndRearms := by
  constructor <;> intro s rest input hi due phase
  all_goals
    rw [step_expiry input hi due, State.expire, phase]
    rfl

/-- Settles O34: the expiry checks that it is due. -/
theorem expiryOnlyWhenDue : Obligations.ExpiryOnlyWhenDue :=
  fun _ _ input notDue => (step_of_input input).trans
    (deliverExpiry_of_not_due (Bool.eq_false_iff.2 fun due => notDue (State.expiryDue_iff.1 due)))

/-- Settles O35: a request for one or more units, or the idle step, at a due deadline. -/
theorem dueExpiryRunsBeforeTimePasses : Obligations.DueExpiryRunsBeforeTimePasses :=
  fun _ hi due => ⟨fun _ _ input => step_advance_of_due input hi due,
    fun noInput => (step_of_no_input noInput).trans (idle_of_due (State.deadline_of_armed hi due))⟩

/-- Settles O36: the request with a deadline ahead, and before `hostInitialize`. -/
theorem timeStopsAtTheDeadline : Obligations.TimeStopsAtTheDeadline :=
  ⟨fun _ _ _ _ input hi armed ahead => step_advance_of_ahead input hi armed ahead,
    fun _ _ _ input hi => step_advance_of_uninitialised input hi⟩

/-- Settles O32: the flag read is the phase. -/
theorem isBlankingReadsThePhase : Obligations.IsBlankingReadsThePhase := by
  refine fun s rest input => ⟨fun hi => ?_, fun hi => (step_of_input input).trans (readIsBlanking_of_uninitialised hi)⟩
  rw [step_isBlanking input hi, Phase.isBlank_eq_decide]
  rfl

/-- Settles O30: the accessors and the cursor reads look at the same two cells. -/
theorem cursorAccessorsReturnTheCells : Obligations.CursorAccessorsReturnTheCells :=
  fun s rest => ⟨step_cons s .cursorX rest, step_cons s .cursorY rest, exec_rdcurx rfl, exec_rdcury rfl⟩

/-- Settles O26: power-on differs from the reset state in the cells alone, and `reset()` clears them. -/
theorem firstHostResetGivesTheResetState : Obligations.FirstHostResetGivesTheResetState :=
  ⟨rfl, rfl, rfl, State.powerOn.cell_clearCells⟩

/-! ### One operation after another -/

theorem answersAfter_expiry {s : State} (hi : s.initialised = true) (due : s.armed = some s.now) (ops : List Input) :
    answersAfter (.expiry :: ops) s = answersAfter ops ({ s with inputs := ops } : State).expire :=
  answersAfter_cons (deliverExpiry_of_due (s := { s with inputs := ops }) hi due) rfl

theorem answersAfter_isBlanking {s : State} (hi : s.initialised = true) (ops : List Input) :
    answersAfter (.isBlanking :: ops) s =
      answersAfter ops (({ s with inputs := ops } : State).answer (.isBlanking s.phase.isBlank)) :=
  answersAfter_cons (readIsBlanking_of_initialised (s := { s with inputs := ops }) hi) rfl

/-- Settles O44: `isBlanking()` answers the phase it finds, and the expiry toggles it. -/
theorem bothOrdersAtATransition : Obligations.BothOrdersAtATransition := by
  intro s hi due
  constructor
  · rw [answersAfter_isBlanking hi, answersAfter_expiry (by exact hi) (by exact due), answersAfter_nil]
    rfl
  · rw [answersAfter_expiry hi due, answersAfter_isBlanking (by exact hi), answersAfter_nil, ← Phase.isBlank_toggle]
    rfl

end Sys2Proof.Machine

/-! ## Every change is seen by the next operation (R52) -/

namespace Sys2Proof.Machine

/-! ### Each observer, as the first of some operations -/

theorem answersAfter_readCursorX {s : State} {b : Byte} (h : s.cell 0x9 = b) (ops : List Input) :
    answersAfter (.bus 0x0900 :: ops) s =
      answersAfter ops (({ s with inputs := ops } : State).answer (.read 0x9#4 b)) :=
  answersAfter_bus (decode_of_isRead (i := .rdcurx) (p := 0x9#4) rfl rfl 0#8)
    (exec_rdcurx (s := { s with inputs := ops }) h) rfl

theorem answersAfter_readCursorY {s : State} {b : Byte} (h : s.cell 0x8 = b) (ops : List Input) :
    answersAfter (.bus 0x0800 :: ops) s =
      answersAfter ops (({ s with inputs := ops } : State).answer (.read 0x8#4 b)) :=
  answersAfter_bus (decode_of_isRead (i := .rdcury) (p := 0x8#4) rfl rfl 0#8)
    (exec_rdcury (s := { s with inputs := ops }) h) rfl

theorem answersAfter_cursorX {s : State} {b : Byte} (h : s.cell 0x9 = b) (ops : List Input) :
    answersAfter (.cursorX :: ops) s = answersAfter ops (({ s with inputs := ops } : State).answer (.cursorX b)) :=
  h ▸ answersAfter_cons rfl rfl

theorem answersAfter_cursorY {s : State} {b : Byte} (h : s.cell 0x8 = b) (ops : List Input) :
    answersAfter (.cursorY :: ops) s = answersAfter ops (({ s with inputs := ops } : State).answer (.cursorY b)) :=
  h ▸ answersAfter_cons rfl rfl

theorem State.firstDisplayRow_of_cell {s : State} {offset : Nat} (h : (s.cell 0x6).toNat = offset) :
    s.firstDisplayRow = Fin.ofNat 32 (offset + 1) :=
  Fin.ext (h ▸ s.val_firstDisplayRow)

theorem answersAfter_firstDisplayRow {s : State} {row : Fin 32} (h : s.firstDisplayRow = row) (ops : List Input) :
    answersAfter (.firstDisplayRow :: ops) s =
      answersAfter ops (({ s with inputs := ops } : State).answer (.firstDisplayRow row)) :=
  h ▸ answersAfter_cons rfl rfl

/-! ### Each change, before some operations -/

theorem answersAfter_loadCursorX (s : State) (v : Byte) (ops : List Input) :
    answersAfter (.bus (0x1C00 + v.toNat) :: ops) s =
      answersAfter ops (({ s with inputs := ops } : State).setCell 0x9 v).markDirty :=
  answersAfter_bus (decode_of_isWrite (p := 0xC#4) rfl rfl rfl) (exec_ldcurx v _) rfl

theorem answersAfter_loadCursorY (s : State) (v : Byte) (ops : List Input) :
    answersAfter (.bus (0x1D00 + v.toNat) :: ops) s =
      answersAfter ops (({ s with inputs := ops } : State).setCell 0x8 (lowSixBits v)).markDirty :=
  answersAfter_bus (decode_of_isWrite (p := 0xD#4) rfl rfl rfl) (exec_ldcury v _) rfl

theorem answersAfter_loadLastRow (s : State) (v : Byte) (ops : List Input) :
    answersAfter (.bus (0x1600 + v.toNat) :: ops) s =
      answersAfter ops (({ s with inputs := ops } : State).setCell 0x6 v).markDirty :=
  answersAfter_bus (decode_of_isWrite (p := 0x6#4) rfl rfl rfl) (exec_ldlastrow v _) rfl

theorem answersAfter_scrollUp (s : State) (v : Byte) (ops : List Input) :
    answersAfter (.bus (0x1B00 + v.toNat) :: ops) s =
      answersAfter ops (({ s with inputs := ops } : State).scrolledBy 1) :=
  answersAfter_bus (decode_of_isWrite (p := 0xB#4) rfl rfl rfl) (exec_scrollup v _) rfl

theorem answersAfter_hostReset (s : State) (ops : List Input) :
    answersAfter (.hostReset :: ops) s = answersAfter ops ({ s with inputs := ops } : State).clearCells :=
  answersAfter_cons rfl rfl

theorem answersAfter_hostInitialize {s : State} {freq : Nat} (hi : s.initialised = false) (hf : 212766 ≤ freq)
    (ops : List Input) :
    answersAfter (.hostInitialize freq :: ops) s =
      answersAfter ops (({ s with inputs := ops } : State).startBlanking freq) :=
  answersAfter_cons (hostInitialize_of_contract (s := { s with inputs := ops }) hi hf) rfl

/-- Settles O24: in each clause the observer finds the cell, or the phase, as the change before it left it. -/
theorem changesAreVisibleAtOnce : Obligations.ChangesAreVisibleAtOnce := by
  intro s v
  refine ⟨?_, ?_, ?_, ?_, ?_, ?_, ?_, fun hi due => (bothOrdersAtATransition s hi due).2, fun hi freq hf => ?_⟩
  · rw [answersAfter_loadCursorX, answersAfter_readCursorX (State.cell_setCell_markDirty _ _ v)]
    rfl
  · rw [answersAfter_loadCursorX, answersAfter_cursorX (State.cell_setCell_markDirty _ _ v)]
    rfl
  · rw [answersAfter_loadCursorY, answersAfter_readCursorY (State.cell_setCell_markDirty _ _ (lowSixBits v))]
    rfl
  · rw [answersAfter_loadCursorY, answersAfter_cursorY (State.cell_setCell_markDirty _ _ (lowSixBits v))]
    rfl
  · have stored := State.cell_setCell_markDirty { s with inputs := [.firstDisplayRow] } 0x6 v
    rw [answersAfter_loadLastRow,
      answersAfter_firstDisplayRow (State.firstDisplayRow_of_cell (congrArg BitVec.toNat stored))]
    rfl
  · have row : (({ s with inputs := [.firstDisplayRow] } : State).scrolledBy 1).firstDisplayRow =
        Fin.ofNat 32 ((s.cell 0x6).toNat + 2) :=
      Fin.ext (State.val_firstDisplayRow_scrolledBy _ 1)
    rw [answersAfter_scrollUp, answersAfter_firstDisplayRow row]
    rfl
  · have cleared := s.cell_clearCells
    exact (answersAfter_hostReset s _).trans <| (answersAfter_readCursorY (by exact cleared 0x8) _).trans <|
      (answersAfter_readCursorX (by exact cleared 0x9) _).trans <|
      (answersAfter_cursorX (by exact cleared 0x9) _).trans <| (answersAfter_cursorY (by exact cleared 0x8) _).trans <|
      answersAfter_firstDisplayRow (by exact Fin.ext s.val_firstDisplayRow_clearCells) _
  · rw [answersAfter_hostInitialize hi hf, answersAfter_isBlanking rfl]
    rfl

end Sys2Proof.Machine

/-! ## The register half and the timer's half do not see each other (R138, R139, R155)

The operations on the registers commute with an exchange of the timer's half, whatever is put there. The operations on
the timer end alike from the same timer half, whatever the registers. -/

namespace Sys2Proof.Machine

/-- A result with `f` applied to the next state, if there is one. -/
def mapNext (f : State → State) : Result → Result
  | .next t => .next (f t)
  | .fault r => .fault r
  | .refused r => .refused r

/-- The registers of `s`, and of `u` the timer's half and the operations still to come. -/
def State.withTimerOf (s u : State) : State :=
  { u with cells := s.cells, dirty := s.dirty, answers := s.answers }

/-- The bus transactions, `reset()` and the accessors that read a cell. -/
def Input.onRegisters : Input → Bool
  | .bus _ | .hostReset | .cursorX | .cursorY | .firstDisplayRow => true
  | .hostInitialize _ | .isBlanking | .expiry | .advance _ => false

theorem SameRegisters.withTimerOf {s s' : State} (h : SameRegisters s s') : s.withTimerOf s' = s' := by
  rw [State.withTimerOf, ← h.cells, ← h.dirty, ← h.answers]

theorem memRead_withTimerOf (p : Port) (s u : State) : memRead p (s.withTimerOf u) = memRead p s := rfl

theorem exec_withTimerOf (i : Instr) (s u : State) :
    exec i (s.withTimerOf u) = mapNext (·.withTimerOf u) (exec i s) := by
  cases hw : i.isWrite with
  | true =>
    rcases exec_eq_of_isWrite hw with ⟨-, run⟩ | ⟨c, f, -, run⟩
    · rw [run, run]; rfl
    · rw [run, run]; rfl
  | false =>
    rw [exec_of_isRead hw, exec_of_isRead hw, memRead_withTimerOf]
    rfl

/-- An operation on the registers neither reads nor writes the timer's half and the operations still to come. -/
theorem perform_withTimerOf {e : Input} (he : e.onRegisters = true) (s u : State) :
    perform e (s.withTimerOf u) = mapNext (·.withTimerOf u) (perform e s) := by
  cases e with
  | bus word =>
    show runBusWord word (s.withTimerOf u) = mapNext (·.withTimerOf u) (runBusWord word s)
    cases decoded : decode word with
    | ok i => rw [runBusWord_of_decode decoded, runBusWord_of_decode decoded, exec_withTimerOf]
    | error e => rw [runBusWord_of_error decoded, runBusWord_of_error decoded]; rfl
  | hostReset | cursorX | cursorY | firstDisplayRow => rfl
  | hostInitialize | isBlanking | expiry | advance => cases he

theorem perform_keeps_timer {e : Input} (he : e.onRegisters = true) {s t : State} (h : perform e s = .next t) :
    t.withTimerOf s = t := by
  have own := perform_withTimerOf he s s
  rw [SameRegisters.withTimerOf ⟨rfl, rfl, rfl⟩, h] at own
  exact (Host.Outcome.next.inj own).symm

theorem sameTimer_withTimerOf (s u : State) : SameTimer u (s.withTimerOf u) := ⟨rfl, rfl, rfl, rfl, rfl, rfl⟩

/-- Settles O23: the two states differ by an exchange of the timer's half, and so do the two next states. -/
theorem registerHalfIsIndependentOfTheTimer : Obligations.RegisterHalfIsIndependentOfTheTimer := by
  intro e s s' t he same h
  have onRegisters : e.onRegisters = true := by
    rcases he with rfl | ⟨word, rfl⟩ <;> rfl
  have other := perform_withTimerOf onRegisters s s'
  rw [same.withTimerOf, h] at other
  exact ⟨perform_keeps_timer onRegisters h ▸ sameTimer_withTimerOf t s, t.withTimerOf s', other, ⟨rfl, rfl, rfl⟩,
    sameTimer_withTimerOf t s'⟩

/-! ### An expiry in either order (R155) -/

theorem run_one (s : State) : core.run 1 s = step s := by
  cases h : step s <;> simp [Host.Core.run, core, h]

theorem run_succ_of_refused {s : State} {r : Refusal} (h : step s = .refused r) (k : Nat) :
    core.run (k + 1) s = .refused r := by
  simp [Host.Core.run, core, h]

/-- Settles O45: an operation on the registers runs alike on the two timer halves, and the expiry alike before and after
it; `hostInitialize` is refused in both orders. -/
theorem expiryCommutesWithTheRest : Obligations.ExpiryCommutesWithTheRest := by
  intro s e rest hi due he
  have expiryFirst : core.run 2 { s with inputs := .expiry :: e :: rest } =
      perform e ({ s with inputs := rest } : State).expire := by
    rw [run_succ_of_step (step_expiry (s := { s with inputs := .expiry :: e :: rest }) rfl hi due), run_one]
    exact step_of_input rfl
  rw [expiryFirst]
  have onRegisters (he : e.onRegisters = true) :
      perform e ({ s with inputs := rest } : State).expire = core.run 2 { s with inputs := e :: .expiry :: rest } := by
    have first := perform_withTimerOf he { s with inputs := rest } ({ s with inputs := rest } : State).expire
    have second := (step_cons s e (.expiry :: rest)).trans
      (perform_withTimerOf he { s with inputs := rest } { s with inputs := .expiry :: rest })
    cases ran : perform e { s with inputs := rest } with
    | next t =>
      rw [ran] at first second
      rw [run_succ_of_step second, run_one]
      exact first.trans (step_expiry (s := t.withTimerOf { s with inputs := .expiry :: rest }) rfl hi due).symm
    | fault r => cases r
    | refused r =>
      rw [ran] at first second
      exact first.trans (run_succ_of_refused second 1).symm
  rcases he with ⟨word, rfl⟩ | rfl | ⟨freq, rfl⟩ | rfl | rfl | rfl
  case inr.inr.inl =>
    have second : step { s with inputs := .hostInitialize freq :: .expiry :: rest } = .refused .secondInitialize :=
      hostInitialize_of_initialised (s := { s with inputs := .expiry :: rest }) hi
    rw [run_succ_of_refused second]
    exact hostInitialize_of_initialised hi
  all_goals exact onRegisters rfl

/-! ### Before `hostInitialize` (R30, R139) -/

/-- Other values in the three fields to which no rule gives one before `hostInitialize`. -/
def State.withBlanking (s : State) (p : Phase) (b n : Nat) : State :=
  { s with phase := p, blankTicks := b, nonblankTicks := n }

/-- The same, as long as `hostInitialize` has not run. -/
def State.withBlankingBefore (p : Phase) (b n : Nat) (s : State) : State :=
  if s.initialised then s else s.withBlanking p b n

theorem State.withBlankingBefore_of_uninitialised {s : State} (hi : s.initialised = false) (p : Phase) (b n : Nat) :
    s.withBlankingBefore p b n = s.withBlanking p b n :=
  if_neg (by simp [hi])

theorem State.expiryDue_of_uninitialised {s : State} (hi : s.initialised = false) : s.expiryDue = false := by
  simp [State.expiryDue, State.deadline_eq_none_of_uninitialised hi]

/-- An operation on the registers, before `hostInitialize`. -/
theorem perform_withBlanking_of_onRegisters {e : Input} (he : e.onRegisters = true) {s : State}
    (hi : s.initialised = false) (p : Phase) (b n : Nat) :
    perform e (s.withBlanking p b n) = mapNext (State.withBlankingBefore p b n) (perform e s) := by
  have exchanged : perform e (s.withBlanking p b n) = mapNext (·.withTimerOf (s.withBlanking p b n)) (perform e s) :=
    perform_withTimerOf he s (s.withBlanking p b n)
  rw [exchanged]
  cases ran : perform e s with
  | next t =>
    have before : (t.withTimerOf s).initialised = false := hi
    have kept := perform_keeps_timer he ran
    rw [kept] at before
    show Host.Outcome.next ((t.withTimerOf s).withBlanking p b n) = .next (State.withBlankingBefore p b n t)
    rw [kept, State.withBlankingBefore_of_uninitialised before]
  | fault r => rfl
  | refused r => rfl

/-- Any operation, before `hostInitialize`. -/
theorem perform_withBlanking (e : Input) {s : State} (hi : s.initialised = false) (p : Phase) (b n : Nat) :
    perform e (s.withBlanking p b n) = mapNext (State.withBlankingBefore p b n) (perform e s) := by
  have hi' : (s.withBlanking p b n).initialised = false := hi
  cases e with
  | bus | hostReset | cursorX | cursorY | firstDisplayRow => exact perform_withBlanking_of_onRegisters rfl hi p b n
  | hostInitialize freq =>
    rw [perform, perform]
    rcases Nat.lt_or_ge freq 212766 with low | inContract
    · rw [hostInitialize_of_low hi low, hostInitialize_of_low hi' low, mapNext]
    · rw [hostInitialize_of_contract hi inContract, hostInitialize_of_contract hi' inContract]
      rfl
  | isBlanking =>
    rw [perform, perform, readIsBlanking_of_uninitialised hi, readIsBlanking_of_uninitialised hi', mapNext]
  | expiry =>
    rw [perform, perform, deliverExpiry_of_not_due (State.expiryDue_of_uninitialised hi),
      deliverExpiry_of_not_due (State.expiryDue_of_uninitialised hi'), mapNext]
  | advance units =>
    rw [perform, perform, advanceTime_of_waiting (State.deadline_eq_none_of_uninitialised hi),
      advanceTime_of_waiting (State.deadline_eq_none_of_uninitialised hi'), mapNext,
      State.withBlankingBefore_of_uninitialised (s := s.passTime units) hi]
    rfl

theorem step_withBlanking {s : State} (hi : s.initialised = false) (p : Phase) (b n : Nat) :
    step (s.withBlanking p b n) = mapNext (State.withBlankingBefore p b n) (step s) := by
  cases input : s.inputs with
  | nil =>
    have input' : (s.withBlanking p b n).inputs = [] := input
    have waiting' : (s.withBlanking p b n).deadline = none := State.deadline_eq_none_of_uninitialised hi
    rw [step_of_no_input input, step_of_no_input input', idle_of_waiting waiting',
      idle_of_waiting (State.deadline_eq_none_of_uninitialised hi), mapNext,
      State.withBlankingBefore_of_uninitialised hi]
  | cons e rest =>
    have input' : (s.withBlanking p b n).inputs = e :: rest := input
    rw [step_of_input input, step_of_input input']
    exact perform_withBlanking e (s := { s with inputs := rest }) hi p b n

/-- Settles O54: the step carries the other values along until `hostInitialize` overwrites them. -/
theorem nothingReadsTheBlankingStateBeforeInitialize : Obligations.NothingReadsTheBlankingStateBeforeInitialize := by
  intro s p b n hi
  have carried := step_withBlanking hi p b n
  refine ⟨fun r h => ?_, fun t h after => ?_, fun t h before => ?_⟩
  · rwa [h] at carried
  · rwa [h, mapNext, State.withBlankingBefore, if_pos after] at carried
  · rwa [h, mapNext, State.withBlankingBefore_of_uninitialised before] at carried

/-! ### From the timer's side (R138) -/

theorem SameTimer.startBlanking {s s' : State} (h : SameTimer s s') (freq : Nat) :
    SameTimer (s.startBlanking freq) (s'.startBlanking freq) :=
  ⟨rfl, rfl, rfl, by simp only [State.startBlanking_armed, h.now], rfl, h.now⟩

theorem SameTimer.expire {s s' : State} (h : SameTimer s s') : SameTimer s.expire s'.expire :=
  ⟨congrArg Phase.toggle h.phase, h.blankTicks, h.nonblankTicks,
    by simp only [State.expire_armed, h.now, h.phase, h.ticksOf], h.initialised, h.now⟩

theorem SameTimer.passTime {s s' : State} (h : SameTimer s s') (n : Nat) : SameTimer (s.passTime n) (s'.passTime n) :=
  ⟨h.phase, h.blankTicks, h.nonblankTicks, h.armed, h.initialised, congrArg (· + n) h.now⟩

theorem SameTimer.pushInput {s s' : State} (h : SameTimer s s') (e : Input) :
    SameTimer (s.pushInput e) (s'.pushInput e) :=
  ⟨h.phase, h.blankTicks, h.nonblankTicks, h.armed, h.initialised, h.now⟩

/-- Two results that are refused alike, or complete in states with one timer half and each with the registers it had. -/
inductive EndsAlike (s s' : State) : Result → Result → Prop
  | next {t t' : State} (own : SameRegisters s t) (timer : SameTimer t t') (own' : SameRegisters s' t') :
      EndsAlike s s' (.next t) (.next t')
  | refused (r : Refusal) : EndsAlike s s' (.refused r) (.refused r)

theorem EndsAlike.iff {s s' : State} {r r' : Result} (h : EndsAlike s s' r r') :
    (∀ t, r = .next t → SameRegisters s t ∧ ∃ t', r' = .next t' ∧ SameTimer t t' ∧ SameRegisters s' t') ∧
    (∀ x, r = .refused x → r' = .refused x) := by
  cases h with
  | next own timer own' =>
    refine ⟨fun t ht => ?_, nofun⟩
    cases ht
    exact ⟨own, _, rfl, timer, own'⟩
  | refused r => exact ⟨nofun, fun _ hx => hx⟩

section
variable {s s' : State} (h : SameTimer s s')
include h

theorem hostInitialize_endsAlike (freq : Nat) : EndsAlike s s' (hostInitialize freq s) (hostInitialize freq s') := by
  unfold hostInitialize
  rw [h.initialised]
  split
  · exact .refused _
  split
  · exact .refused _
  · exact .next ⟨rfl, rfl, rfl⟩ (h.startBlanking freq) ⟨rfl, rfl, rfl⟩

theorem deliverExpiry_endsAlike : EndsAlike s s' (deliverExpiry s) (deliverExpiry s') := by
  have due : s'.expiryDue = s.expiryDue := by rw [State.expiryDue, State.expiryDue, h.deadline, h.now]
  unfold deliverExpiry
  rw [due]
  split
  · exact .next ⟨rfl, rfl, rfl⟩ h.expire ⟨rfl, rfl, rfl⟩
  · exact .refused _

theorem advanceTime_endsAlike (n : Nat) : EndsAlike s s' (advanceTime n s) (advanceTime n s') := by
  unfold advanceTime
  rw [h.deadline, h.now]
  split
  · exact .next ⟨rfl, rfl, rfl⟩ h ⟨rfl, rfl, rfl⟩
  · exact .next ⟨rfl, rfl, rfl⟩ (h.passTime _) ⟨rfl, rfl, rfl⟩
  split
  · exact .refused _
  split
  · exact .next ⟨rfl, rfl, rfl⟩ (h.expire.pushInput _) ⟨rfl, rfl, rfl⟩
  split
  · exact .next ⟨rfl, rfl, rfl⟩ (h.passTime _) ⟨rfl, rfl, rfl⟩
  · exact .next ⟨rfl, rfl, rfl⟩ ((h.passTime _).pushInput _) ⟨rfl, rfl, rfl⟩

theorem idle_endsAlike : EndsAlike s s' (idle s) (idle s') := by
  unfold idle
  rw [h.deadline, h.now]
  split
  · exact .next ⟨rfl, rfl, rfl⟩ h ⟨rfl, rfl, rfl⟩
  split
  · exact .refused _
  split
  · exact .next ⟨rfl, rfl, rfl⟩ h.expire ⟨rfl, rfl, rfl⟩
  · exact .next ⟨rfl, rfl, rfl⟩ (h.passTime _) ⟨rfl, rfl, rfl⟩

end

theorem readIsBlanking_refused {s : State} {r : Refusal} (h : readIsBlanking s = .refused r) :
    s.initialised = false ∧ r = .blankingReadBeforeInitialize := by
  cases hi : s.initialised with
  | true => cases (readIsBlanking_of_initialised hi).symm.trans h
  | false =>
    cases (readIsBlanking_of_uninitialised hi).symm.trans h
    exact ⟨rfl, rfl⟩

/-- Settles O57: the timer's operations end alike in both states; `isBlanking()` reads two fields of the timer's
half. -/
theorem timerHalfIsIndependentOfTheRegisters : Obligations.TimerHalfIsIndependentOfTheRegisters := by
  intro s s' h
  have idleAlike := (idle_endsAlike h).iff
  refine ⟨fun e he => ?_, idleAlike.1, idleAlike.2, fun t ht => ?_, fun r hr => ?_⟩
  · rcases he with rfl | ⟨freq, rfl⟩ | ⟨n, rfl⟩
    · exact (deliverExpiry_endsAlike h).iff
    · exact (hostInitialize_endsAlike h freq).iff
    · exact (advanceTime_endsAlike h n).iff
  · obtain ⟨hi, answered⟩ := readIsBlanking_next ht
    exact ⟨s.phase.isBlank, answered, h.phase ▸ readIsBlanking_of_initialised (h.initialised.trans hi)⟩
  · obtain ⟨hi, rfl⟩ := readIsBlanking_refused hr
    exact readIsBlanking_of_uninitialised (h.initialised.trans hi)

end Sys2Proof.Machine

/-! ## What completes, and what is refused (R69, R121, R125, R133, R150) -/

namespace Sys2Proof.Machine

theorem exec_completes (i : Instr) (s : State) : ∃ t, exec i s = .next t := by
  rcases exec_cases i s with ⟨-, -, run⟩ | ⟨_, _, -, -, -, run⟩ | ⟨_, -, -, run⟩ <;> exact ⟨_, run⟩

/-- Time can always pass, if only up to a deadline or after an expiry. -/
theorem advanceTime_completes {s : State} (hs : s.timerInv = true) (n : Nat) : ∃ t, advanceTime n s = .next t := by
  rcases State.deadline_cases_of_timerInv hs with waiting | due | ⟨d, hd, ahead⟩
  · exact ⟨_, advanceTime_of_waiting waiting n⟩
  · cases n with
    | zero => exact ⟨s, rfl⟩
    | succ n => exact ⟨_, advanceTime_of_due due n⟩
  · rw [advanceTime_of_ahead hd ahead]
    split <;> exact ⟨_, rfl⟩

theorem idle_completes {s : State} (hs : s.timerInv = true) : ∃ t, idle s = .next t := by
  rcases State.deadline_cases_of_timerInv hs with waiting | due | ⟨d, hd, ahead⟩
  · exact ⟨s, idle_of_waiting waiting⟩
  · exact ⟨_, idle_of_due due⟩
  · exact ⟨_, idle_of_ahead hd ahead⟩

/-- The grounds of a refusal: the operation, the reason, and what makes it so. -/
inductive RefusalGround (s : State) : Input → Refusal → Prop
  | wideWord {word : Nat} (wide : 0x2000 ≤ word) : RefusalGround s (.bus word) .notATransactionWord
  | secondInitialize {freq : Nat} (hi : s.initialised = true) :
      RefusalGround s (.hostInitialize freq) .secondInitialize
  | zeroDuration {freq : Nat} (low : freq < 212766) : RefusalGround s (.hostInitialize freq) .zeroDuration
  | earlyBlankingRead (hi : s.initialised = false) : RefusalGround s .isBlanking .blankingReadBeforeInitialize
  | notDue (early : s.expiryDue = false) : RefusalGround s .expiry .expiryNotDue

/-- Under the timer's invariant an operation completes, or there is a ground to refuse it. -/
theorem perform_completes_or_refused {s : State} (hs : s.timerInv = true) (e : Input) :
    (∃ t, perform e s = .next t) ∨ ∃ r, perform e s = .refused r ∧ RefusalGround s e r := by
  cases e with
  | bus word =>
    rcases Nat.lt_or_ge word 0x2000 with inRange | wide
    · obtain ⟨i, decoded, -⟩ := exists_decode_of_lt inRange
      obtain ⟨t, run⟩ := exec_completes i s
      exact .inl ⟨t, (runBusWord_of_decode decoded s).trans run⟩
    · exact .inr ⟨_, runBusWord_of_error (decode_of_ge wide) s, .wideWord wide⟩
  | hostReset | cursorX | cursorY | firstDisplayRow => exact .inl ⟨_, rfl⟩
  | hostInitialize freq =>
    cases hi : s.initialised with
    | true => exact .inr ⟨_, hostInitialize_of_initialised hi, .secondInitialize hi⟩
    | false =>
      rcases Nat.lt_or_ge freq 212766 with low | inContract
      · exact .inr ⟨_, hostInitialize_of_low hi low, .zeroDuration low⟩
      · exact .inl ⟨_, hostInitialize_of_contract hi inContract⟩
  | isBlanking =>
    cases hi : s.initialised with
    | true => exact .inl ⟨_, readIsBlanking_of_initialised hi⟩
    | false => exact .inr ⟨_, readIsBlanking_of_uninitialised hi, .earlyBlankingRead hi⟩
  | expiry =>
    cases due : s.expiryDue with
    | true =>
      obtain ⟨hi, armed⟩ := State.expiryDue_iff.1 due
      exact .inl ⟨_, deliverExpiry_of_due hi armed⟩
    | false => exact .inr ⟨_, deliverExpiry_of_not_due due, .notDue due⟩
  | advance units => exact .inl (advanceTime_completes hs units)

/-- A step completes, or there is a ground to refuse its operation. -/
theorem step_completes_or_refused {s : State} (hs : s.timerInv = true) :
    (∃ t, step s = .next t) ∨
      ∃ e rest r, s.inputs = e :: rest ∧ step s = .refused r ∧ RefusalGround { s with inputs := rest } e r := by
  cases input : s.inputs with
  | nil => exact .inl (step_of_no_input input ▸ idle_completes hs)
  | cons e rest =>
    rw [step_of_input input]
    rcases perform_completes_or_refused (s := { s with inputs := rest }) hs e with completes | ⟨r, refused, ground⟩
    · exact .inl completes
    · exact .inr ⟨e, rest, r, rfl, refused, ground⟩

/-- Settles O55: each ground of a refusal is outside the contract. -/
theorem operationsWithinTheContractComplete : Obligations.OperationsWithinTheContractComplete := by
  intro s hs contract
  rcases step_completes_or_refused hs with completes | ⟨e, rest, r, input, -, ground⟩
  · exact completes
  exfalso
  unfold State.inContract at contract
  rw [input] at contract
  cases ground with
  | wideWord wide => exact Nat.not_lt.2 wide (of_decide_eq_true contract)
  | secondInitialize hi =>
    have notBefore : s.initialised = false := Bool.not_eq_true' _ ▸ (Bool.and_eq_true_iff.1 contract).1
    exact Bool.false_ne_true (notBefore.symm.trans hi)
  | zeroDuration low => exact Nat.not_le.2 low (of_decide_eq_true (Bool.and_eq_true_iff.1 contract).2)
  | earlyBlankingRead hi => exact Bool.false_ne_true (hi.symm.trans contract)
  | notDue early => exact Bool.false_ne_true (early.symm.trans contract)

/-- Settles O56: the reason of a refused step is one of the grounds. -/
theorem refusalsAreTheSpecsOwn : Obligations.RefusalsAreTheSpecsOwn := by
  intro s r hs h
  rcases step_completes_or_refused hs with ⟨t, completes⟩ | ⟨e, rest, r', input, refused, ground⟩
  · cases completes.symm.trans h
  cases refused.symm.trans h
  cases ground with
  | wideWord wide => exact .inl ⟨rfl, _, rest, input, wide⟩
  | secondInitialize hi => exact .inr (.inl ⟨rfl, hi, _, rest, input⟩)
  | zeroDuration low => exact .inr (.inr (.inl ⟨rfl, _, rest, input, low⟩))
  | earlyBlankingRead hi => exact .inr (.inr (.inr (.inl ⟨rfl, hi, rest, input⟩)))
  | notDue early => exact .inr (.inr (.inr (.inr ⟨rfl, early, rest, input⟩)))

end Sys2Proof.Machine

/-! ## Runs of the timer (R135 to R137) -/

namespace Sys2Proof.Machine

/-- What every step keeps, a run keeps. -/
theorem run_keeps {P : State → Prop} (keeps : ∀ s t, P s → step s = .next t → P t) {k : Nat} {s t : State} (hs : P s)
    (h : core.run k s = .next t) : P t := by
  induction k generalizing s with
  | zero =>
    cases h
    exact hs
  | succ k ih =>
    cases first : step s with
    | next u =>
      rw [run_succ_of_step first] at h
      exact ih (keeps s u hs first) h
    | fault r => cases r
    | refused r => cases (run_succ_of_refused first k).symm.trans h

theorem timerInv_of_run {k : Nat} {s t : State} (hs : s.timerInv = true) (h : core.run k s = .next t) :
    t.timerInv = true :=
  run_keeps (P := fun s => s.timerInv = true) everyStepKeepsTheTimerInvariant hs h

/-! ### Left alone -/

/-- At the deadline, with no operation handed over, the next step is the expiry. -/
theorem run_one_of_due {s : State} (hi : s.initialised = true) (due : s.armed = some s.now) (noInput : s.inputs = []) :
    core.run 1 s = .next s.expire :=
  (run_one s).trans ((step_of_no_input noInput).trans (idle_of_due (State.deadline_of_armed hi due)))

/-- Settles O38: the clock goes to the deadline if it is not there yet, and then the expiry runs. -/
theorem timerNeverStops : Obligations.TimerNeverStops := by
  intro s d hs hi armed noInput
  rcases State.deadline_cases_of_timerInv hs with waiting | due | ⟨d', hd, ahead⟩
  · exact absurd (waiting.symm.trans (State.deadline_of_armed hi armed)) nofun
  · obtain rfl : d = s.now := Option.some.inj ((State.deadline_of_armed hi armed).symm.trans due)
    have run := run_one_of_due hi armed noInput
    exact ⟨1, _, by omega, run, rfl, rfl, rfl, timerInv_of_run hs run, rfl, rfl, noInput⟩
  · obtain rfl : d = d' := Option.some.inj ((State.deadline_of_armed hi armed).symm.trans hd)
    have atDeadline : (s.passTime (d - s.now)).now = d := Nat.add_sub_of_le ahead.le
    have toDeadline : step s = .next (s.passTime (d - s.now)) :=
      (step_of_no_input noInput).trans (idle_of_ahead hd ahead)
    have run : core.run 2 s = .next (s.passTime (d - s.now)).expire := by
      rw [run_succ_of_step toDeadline]
      exact run_one_of_due hi (armed.trans (congrArg some atDeadline.symm)) noInput
    refine ⟨2, _, Nat.le_refl 2, run, atDeadline, rfl, ?_, timerInv_of_run hs run, rfl, rfl, noInput⟩
    rw [State.expire_armed, atDeadline]
    rfl

/-! ### A request to let time pass -/

theorem SameRegisters.trans {s t u : State} (h : SameRegisters s t) (h' : SameRegisters t u) : SameRegisters s u :=
  ⟨h'.cells.trans h.cells, h'.dirty.trans h.dirty, h'.answers.trans h.answers⟩

/-- `t` is `s` when `n` units have passed and the operations `rest` are still to come; no register has moved. -/
structure DelayedBy (n : Nat) (rest : List Input) (s t : State) : Prop where
  inputs : t.inputs = rest
  now : t.now = s.now + n
  registers : SameRegisters s t
  initialised : t.initialised = s.initialised

/-- A request to let `n` units pass ends. -/
def AdvanceEnds (n : Nat) : Prop :=
  ∀ (s : State) (rest : List Input), s.timerInv = true → s.inputs = .advance n :: rest →
    ∃ (k : Nat) (t : State), core.run k s = .next t ∧ DelayedBy n rest s t

/-- A request that ends in one step. -/
theorem exists_run_of_step {n : Nat} {rest : List Input} {s t : State} (h : step s = .next t)
    (delayed : DelayedBy n rest s t) : ∃ k t, core.run k s = .next t ∧ DelayedBy n rest s t :=
  ⟨1, t, (run_one s).trans h, delayed⟩

/-- A request of which one step leaves `m` units, which end. -/
theorem exists_run_of_step_run {m n : Nat} {rest : List Input} {s u : State} (h : step s = .next u)
    (now : u.now + m = s.now + n) (registers : SameRegisters s u) (initialised : u.initialised = s.initialised)
    (ends : ∃ k t, core.run k u = .next t ∧ DelayedBy m rest u t) :
    ∃ k t, core.run k s = .next t ∧ DelayedBy n rest s t := by
  obtain ⟨k, t, run, delayed⟩ := ends
  exact ⟨k + 1, t, (run_succ_of_step h k).trans run, delayed.inputs, delayed.now.trans now,
    registers.trans delayed.registers, delayed.initialised.trans initialised⟩

/-- With the deadline ahead: the request ends before it or on it, or goes on from there with fewer units. -/
theorem exists_run_of_ahead {n d : Nat} (shorter : ∀ m < n, AdvanceEnds m) {s : State} {rest : List Input}
    (hs : s.timerInv = true) (input : s.inputs = .advance n :: rest) (hi : s.initialised = true)
    (armed : s.armed = some d) (ahead : s.now < d) : ∃ k t, core.run k s = .next t ∧ DelayedBy n rest s t := by
  have first := step_advance_of_ahead input hi armed ahead
  split at first
  next => exact exists_run_of_step first ⟨rfl, rfl, ⟨rfl, rfl, rfl⟩, rfl⟩
  next notInTime =>
    have fewer : s.now + n - d < n := by omega
    have total : d + (s.now + n - d) = s.now + n := by omega
    exact exists_run_of_step_run first total ⟨rfl, rfl, rfl⟩ rfl
      (shorter _ fewer _ rest (everyStepKeepsTheTimerInvariant _ _ hs first) rfl)

theorem State.ticksOf_pos {s : State} (hs : s.timerInv = true) (hi : s.initialised = true) (p : Phase) :
    0 < s.ticksOf p := by
  obtain ⟨d, -, -, -, blank, nonblank⟩ := (State.timerInv_of_initialised hi).1 hs
  cases p
  · exact Nat.lt_of_lt_of_le (by decide) nonblank
  · exact blank

/-- By induction on the units: after a due expiry the deadline is ahead. -/
theorem advanceEnds (n : Nat) : AdvanceEnds n := by
  induction n using Nat.strong_induction_on with
  | _ n shorter =>
    intro s rest hs input
    cases hi : s.initialised with
    | false =>
      exact exists_run_of_step (step_advance_of_uninitialised input hi) ⟨rfl, rfl, ⟨rfl, rfl, rfl⟩, rfl⟩
    | true =>
      obtain ⟨d, armed, notPast, -⟩ := (State.timerInv_of_initialised hi).1 hs
      rcases Nat.lt_or_eq_of_le notPast with ahead | rfl
      · exact exists_run_of_ahead shorter hs input hi armed ahead
      cases n with
      | zero => exact exists_run_of_step (step_of_input input) ⟨rfl, rfl, ⟨rfl, rfl, rfl⟩, rfl⟩
      | succ n =>
        have expires := step_advance_of_due input hi armed
        have ahead : s.expire.now < s.now + s.ticksOf s.phase.toggle :=
          Nat.lt_add_of_pos_right (State.ticksOf_pos hs hi _)
        exact exists_run_of_step_run expires rfl ⟨rfl, rfl, rfl⟩ rfl
          (exists_run_of_ahead shorter (State.timerInv_expire hs hi) input hi rfl ahead)

/-- Settles O39: the induction of `advanceEnds`, with the invariant that every step keeps. -/
theorem advanceRunsToItsEnd : Obligations.AdvanceRunsToItsEnd := by
  intro s n rest hs input
  obtain ⟨k, t, run, delayed⟩ := advanceEnds n s rest hs input
  exact ⟨k, t, run, delayed.inputs, delayed.now, delayed.registers, delayed.initialised, timerInv_of_run hs run⟩

/-! ### `isBlanking()` after any delay -/

/-- The block blanks on the timeline of `t0` with phases of `n` and `b` units. -/
structure State.BlanksFrom (t0 n b : Nat) (s : State) : Prop where
  inv : s.timerInv = true
  onTimeline : ∃ k, s.OnTimeline t0 k
  nonblankTicks : s.nonblankTicks = n
  blankTicks : s.blankTicks = b

theorem step_keeps_blanksFrom {t0 n b : Nat} {s t : State} (hs : s.BlanksFrom t0 n b) (h : step s = .next t) :
    t.BlanksFrom t0 n b := by
  obtain ⟨k, line⟩ := hs.onTimeline
  obtain ⟨-, blank, nonblank⟩ := (durationsAreSetOnce s t h).1 line.initialised
  refine ⟨everyStepKeepsTheTimerInvariant s t hs.inv h, ?_, nonblank.trans hs.nonblankTicks, blank.trans hs.blankTicks⟩
  rcases everyStepKeepsTheTimeline s t t0 k hs.inv line h with same | ⟨-, -, next⟩
  · exact ⟨k, same⟩
  · exact ⟨k + 1, next⟩

theorem State.blanksFrom_startBlanking (s : State) {freq : Nat} (hf : 212766 ≤ freq) :
    (s.startBlanking freq).BlanksFrom s.now (nonblankTicksOf freq) (blankTicksOf freq) :=
  ⟨s.timerInv_startBlanking (blankTicksOf_pos hf), ⟨0, .startBlanking s freq⟩, rfl, rfl⟩

/-- R136's closed form, as the flag: `d` units into the period. -/
theorem State.BlanksFrom.isBlank {t0 n b : Nat} {s : State} (hs : s.BlanksFrom t0 n b) :
    (s.now = t0 → s.phase.isBlank = false) ∧
    (0 < (s.now - t0) % (n + b) → (s.now - t0) % (n + b) < n → s.phase.isBlank = false) ∧
    (n < (s.now - t0) % (n + b) → s.phase.isBlank = true) := by
  obtain ⟨inv, ⟨k, line⟩, rfl, rfl⟩ := hs
  obtain ⟨atStart, early, late⟩ := phaseIsTheClosedForm s t0 k inv line
  exact ⟨fun h => congrArg Phase.isBlank (atStart h), fun h h' => congrArg Phase.isBlank (early h h'),
    fun h => congrArg Phase.isBlank (late h)⟩

/-- Settles O43: `hostInitialize` starts the timeline, the delay ends on it, and `isBlanking()` answers its closed
form. -/
theorem blankingAnswerAfterAnyDelay : Obligations.BlankingAnswerAfterAnyDelay := by
  intro s freq n rest hi hf input
  have starts := step_hostInitialize input hi hf
  have blanks := State.blanksFrom_startBlanking { s with inputs := .advance n :: .isBlanking :: rest } hf
  obtain ⟨k, u, delay, delayed⟩ := advanceEnds n _ (.isBlanking :: rest) blanks.inv rfl
  have blanksAfter : u.BlanksFrom s.now (nonblankTicksOf freq) (blankTicksOf freq) :=
    run_keeps (fun _ _ => step_keeps_blanksFrom) blanks delay
  have answers := step_isBlanking delayed.inputs delayed.initialised
  have run : core.run (k + 1 + 1) s =
      .next (({ u with inputs := rest } : State).answer (.isBlanking u.phase.isBlank)) :=
    (run_succ_of_step starts (k + 1)).trans ((run_add delay 1).trans ((run_one u).trans answers))
  have elapsed : u.now - s.now = n := (congrArg (· - s.now) delayed.now).trans (Nat.add_sub_cancel_left ..)
  obtain ⟨atStart, early, late⟩ := blanksAfter.isBlank
  rw [elapsed] at early late
  exact ⟨k + 1 + 1, _, u.phase.isBlank, run, rfl, delayed.now, congrArg _ delayed.registers.answers,
    delayed.registers.cells, delayed.registers.dirty, fun zero => atStart (delayed.now.trans (zero ▸ rfl)), early, late⟩

end Sys2Proof.Machine
